-- ==== Sys2Proof/Word.lean ====
section
/-! DEFINITION. The bit-vector widths of the Encoder Decoder (spec 00_scope.md rules R7, R8).
Bit 0 is the least significant bit of every value; the spec's `concat(a, b)` is `a ++ b`; every value is unsigned. -/

namespace Sys2Proof

/-- `COUNT_WIDTH` (R7, R18): the counter, 8 bits, unsigned; its `+` wraps modulo 256. -/
abbrev Count := BitVec 8

/-- `LEVEL_WIDTH` (R7, R44): the combined level; bit 0 is the rotation-A level, bit 1 the rotation-B level. -/
abbrev Level := BitVec 2

/-- `EVENT_WORD_WIDTH` (R7, R42): one event word, `LINE` in bits 3:2 and `LEVEL` in bits 1:0. -/
abbrev EventWord := BitVec 4

end Sys2Proof
end

