-- ==== Sys2Proof/Syntax.lean ====
section
/-! DEFINITION. The names the spec's rules are written in: line identities (R43), classifications (R48) and the
four operations of the opcode table (R49), each with its one operand `LEVEL`. -/

namespace Sys2Proof

/-- The line whose falling edge triggered an event (R43). -/
inductive Line where
  | a      -- rotation-A
  | b      -- rotation-B
  | btn    -- the push-button
  | other  -- any other line identity (R51)
  deriving DecidableEq, Repr

/-- The classification output of a step (R48). -/
inductive Out where
  | none
  | cw
  | ccw
  | reset
  deriving DecidableEq, Repr, Inhabited

/-- The operations of spec/opcode_table.json, one constructor a row; the operand is the delivered `LEVEL`
(any value with any line: R45). -/
inductive Instr where
  | edgeA (level : Level)      -- EDGE_A, R56
  | edgeB (level : Level)      -- EDGE_B, R57
  | edgeBtn (level : Level)    -- EDGE_BTN, R64
  | edgeOther (level : Level)  -- EDGE_OTHER, R65
  deriving DecidableEq, Repr

/-- The `LINE` field of an event's word: it alone selects the operation (R49). -/
def Instr.line : Instr → Line
  | .edgeA _ => .a
  | .edgeB _ => .b
  | .edgeBtn _ => .btn
  | .edgeOther _ => .other

/-- The `LEVEL` field of an event's word: its one operand (R49). -/
def Instr.level : Instr → Level
  | .edgeA l => l
  | .edgeB l => l
  | .edgeBtn l => l
  | .edgeOther l => l

/-- The event `(L,0bXY)` in the notation of R53. -/
def Instr.ofLine : Line → Level → Instr
  | .a, l => .edgeA l
  | .b, l => .edgeB l
  | .btn, l => .edgeBtn l
  | .other, l => .edgeOther l

end Sys2Proof
end

