-- ==== Sys2Proof/WellFormed.lean ====
section
/-! DEFINITION. Well-formedness. The one check the spec leaves room for is the length of an event word (R42): every
4-bit value is a valid event word, and nothing else is one. -/

namespace Sys2Proof

/-- A natural number is an event word exactly when it fits 4 bits: "There is no other length" (R42). -/
def wordFits (w : Nat) : Bool := decide (w < 16)

/-- Every operation with every `LEVEL` is a legal event: no word is illegal and none is reserved (R45, R51). -/
def Instr.wellFormed : Instr → Bool
  | .edgeA _ => true
  | .edgeB _ => true
  | .edgeBtn _ => true
  | .edgeOther _ => true

end Sys2Proof
end

