-- ==== Sys2Proof/Decode.lean ====
section
/-! DEFINITION. The event word (R42 to R44, R49, R52), its decoder and encoder, and the coding of the classification
output (R48). -/

namespace Sys2Proof

/-- The 2-bit code of a line identity (R43). -/
def Line.code : Line → BitVec 2
  | .a => 0b00#2
  | .b => 0b01#2
  | .btn => 0b10#2
  | .other => 0b11#2

/-- The line identity a `LINE` field names (R43). -/
def Line.ofCode (c : BitVec 2) : Line :=
  if c = 0b00#2 then .a else if c = 0b01#2 then .b else if c = 0b10#2 then .btn else .other

/-- The 2-bit code of a classification (R48). -/
def Out.code : Out → BitVec 2
  | .none => 0b00#2
  | .cw => 0b01#2
  | .ccw => 0b10#2
  | .reset => 0b11#2

/-- `LINE = ev[3:2]` (R42). -/
def lineField (w : EventWord) : BitVec 2 := w.extractLsb' 2 2

/-- `LEVEL = ev[1:0]` (R42). -/
def levelField (w : EventWord) : Level := w.extractLsb' 0 2

/-- The decoder: total, because every 4-bit value is a valid event word (R42, R51). -/
def decodeWord (w : EventWord) : Instr :=
  Instr.ofLine (Line.ofCode (lineField w)) (levelField w)

/-- Why a number is no event word: it does not fit the 4 bits of R42. -/
inductive DecodeError where
  | notFourBits (n : Nat)
  deriving DecidableEq, Repr

/-- The decoder on any natural number: what does not fit an event word is rejected by name. -/
def decodeNat (n : Nat) : Except DecodeError Instr :=
  if wordFits n then .ok (decodeWord (BitVec.ofNat 4 n)) else .error (.notFourBits n)

/-- The instruction read from `nbits` bits `w`, numbered as spec/opcode_table.json numbers them (bits above `nbits`
are 0); `none` where `decodeNat` rejects. -/
def decodeTableWord (nbits w : Nat) : Option Instr :=
  match decodeNat (w % 2 ^ nbits) with
  | .ok i => some i
  | .error _ => none

/-- The encoder: `ev = concat(LINE, LEVEL)` (R42). -/
def encode (i : Instr) : EventWord := i.line.code ++ i.level

/-- The words of an event sequence, one 4-bit word an event (R53). -/
def encodeAll (is : List Instr) : List EventWord := is.map encode

/-- The events of a word sequence. -/
def decodeAll (ws : List EventWord) : List Instr := ws.map decodeWord

end Sys2Proof
end

