-- ==== Sys2Proof/Config.lean ====
section
/-! DEFINITION. What the environment can do next (R55, R78, R85), what the spec leaves OPEN (R7), and the free values
of the model. Every constant here is opaque: no proof can see a value, so a claim holds for every value. -/

namespace Sys2Proof

/-- The pull resistor of one line (R7 `PULL_CONFIG`, "pull resistor optional"). -/
inductive Pull where
  | none
  | up
  | down
  deriving DecidableEq, Repr, Inhabited

/-- What the fields hold when power comes up and nothing has initialised them (R29, R95). -/
structure PowerUpValues where
  cnt  : Count
  cw   : Bool
  ccw  : Bool
  out  : Out
  last : Count
  deriving DecidableEq, Repr, Inhabited

end Sys2Proof

namespace Sys2Proof.Machine

open Sys2Proof

/-- The input ports of the clocked realization, sampled at one rising edge of `clk` (R55). -/
structure Ports where
  rst     : Bool
  evValid : Bool
  evWord  : EventWord
  deriving DecidableEq, Repr, Inhabited

/-- What the environment does next. The order of the inputs is the front end's and the scheduler's choice, so any
sequence of them is admitted, finite or infinite (R82, R85, R91). -/
inductive Input where
  | event (w : EventWord)          -- the front end delivers an event word (R42, R78)
  | report (pin snapshot : Nat)    -- the same before it is coded: the pin that fired and the levels (R47, R78)
  | clock (p : Ports)              -- one rising clock edge of the clocked realization (R55)
  | reset                          -- the reset of R92 (the `RESET` of R53)
  | consumer                       -- the consumer performs its next action (R72, R91)
  | powerUp                        -- power was lost and returns (R29, R90)
  | configureLines                 -- boot step 1 (R95)
  | registerDelivery               -- boot step 3 (R95)
  | startConsumer (displayOk : Bool)  -- boot step 4 (R95); whether the display's bring-up succeeds (R77, R81)
  deriving DecidableEq, Repr, Inhabited

end Sys2Proof.Machine

namespace Sys2Proof

/-- `GPIO_BASE` (R7, OPEN): the hardware line number of rotation-A; rotation-B and the button follow it. -/
opaque Config.gpioBase : Nat

/-- `PULL_CONFIG` (R7, OPEN): no rule depends on it. -/
opaque Config.pullConfig : Line → Pull

/-- `POLL_INTERVAL` (R7, R102, OPEN): the consumer's sleep; no rule depends on it. -/
opaque Config.pollInterval : Nat

/-- The arguments of the display's bring-up operation (R7, R74, OPEN). -/
opaque Config.displayWidth : Nat
/-- See `Config.displayWidth`. -/
opaque Config.displayHeight : Nat
/-- See `Config.displayWidth`. -/
opaque Config.displayAddress : Nat
/-- See `Config.displayWidth`. -/
opaque Config.displayBus : Nat

/-- `X`, the text position (R7, R72, OPEN). -/
opaque Config.textX : Nat
/-- `Y`, the text position (R7, R72, OPEN). -/
opaque Config.textY : Nat
/-- `SCALE`, the text scale (R7, R72, OPEN). -/
opaque Config.textScale : Nat

/-- FREE VALUE (R37, 93_implementation_defined.md U6): which of the values `cnt` held during an overlapped read the
read returns. Its argument numbers the reads. -/
opaque Config.readOverlapPick : Nat → Nat

/-- FREE VALUE (R29, R95): what the fields hold at the n-th power-up, before the reset of R92. -/
opaque Config.powerUpValues : Nat → PowerUpValues

/-- FREE VALUE (R82, R85, R91): the inputs of an environment that never falls silent, one for each number. -/
opaque Config.endlessInput : Nat → Machine.Input

end Sys2Proof
end

