-- ==== Sys2Proof/Machine/State.lean ====
section
/-! DEFINITION. The state: the block's three fields (R15) and its output (R48), the consumer (R71, R72), the boot
stage of the environment (R95), the inputs still to come, finite or without end (R82, R85, R91), and the two counters
that number the free values. Plain data throughout. -/

namespace Sys2Proof.Machine

open Sys2Proof

/-- How far the boot of R95 has come (boot step 4 is independent and stands in `ConsumerPhase`). -/
inductive BootStage where
  | unconfigured     -- nothing done since power came up
  | linesConfigured  -- step 1 done
  | initialised      -- step 2 done: the block is in its reset state
  | delivering       -- step 3 done: events may arrive
  deriving DecidableEq, Repr

/-- Where the consumer stands in the loop of R72. -/
inductive ConsumerPhase where
  | notStarted                                   -- before boot step 4
  | displayFailed                                -- its display did not come up: it halts (R77, R81)
  | poll                                         -- about to call `ReadCount()`
  | reading (first : Count) (later : List Count) -- a read is in progress; the values `cnt` has held since it began
  | clear (v : Count)                            -- read `v`, which differs from `last`: about to clear
  | draw (v : Count)                             -- about to draw `v`
  | flush (v : Count)                            -- about to flush
  | record (v : Count)                           -- about to set `last` to `v`
  | sleep                                        -- in `sleep(POLL_INTERVAL)`
  deriving DecidableEq, Repr

/-- One call of the display collaborator (R74). The arguments that are build-time parameters stand in
`DisplayCall.parameters`. -/
inductive DisplayCall where
  | bringUp                        -- `initialize(width, height, address, bus)`
  | clear
  | drawText (text : List Char)
  | flush
  deriving DecidableEq, Repr

/-- The state of the whole machine. `cnt`, `cw` and `ccw` are the block's architectural state (R15). -/
structure State where
  /-- The counter value (R18). -/
  cnt : Count
  /-- `clockwise_fall` (R19). -/
  cw : Bool
  /-- `counterclockwise_fall` (R20). -/
  ccw : Bool
  /-- The classification of the latest step: the `ev_out` port (R48, R55). No rule reads it (R25). -/
  evOut : Out
  /-- The environment's boot stage (R95). -/
  boot : BootStage
  /-- The consumer's place in its loop (R72). -/
  consumer : ConsumerPhase
  /-- The consumer's previous-observed value (R71). -/
  last : Count
  /-- The display calls made since power came up, oldest first (R74). -/
  displayCalls : List DisplayCall
  /-- The inputs still to come, next first: the model's way of holding the front end's and scheduler's choices. -/
  inputs : List Input
  /-- What follows the last of `inputs` (R85 "finite or infinite"): nothing, or without end the inputs
  `Config.endlessInput` gives from this number on. -/
  onward : Option Nat
  /-- The model's own: how many reads have ended; it numbers `Config.readOverlapPick`. -/
  reads : Nat
  /-- The model's own: how often power has come up; it numbers `Config.powerUpValues`. -/
  powerUps : Nat
  deriving DecidableEq, Repr

/-- Why a step stops. The block itself raises nothing (R80): both reasons are about the environment. -/
inductive Fault where
  /-- Raised by the delivery of an event while boot has not finished: "no step is defined before the reset of rule R92.
  A model gives such an event no step" (93_implementation_defined.md U17, R95). Safe. -/
  | eventBeforeBoot
  /-- Raised by a boot action that stands outside the order R95 demands of the environment. Safe. -/
  | bootOrder
  deriving DecidableEq, Repr

/-- Why an instruction has no meaning. No step of this model is refused. -/
inductive Refusal where
  /-- Raised by an arm of `exec` that has no meaning yet (none has been left so). Safe. -/
  | notModelled (mnemonic : String)
  deriving DecidableEq, Repr

/-- The machine right after reset (R28, R92, R93): the block in IDLE with `cnt = 0` and `out = NONE`, the boot of R95
done, the consumer at the top of its loop with `last = 255` (R71), no input waiting. That "right after reset" is the end
of boot, and the values of the environment's own fields, are DESIGN CHOICE (log entries 2, 3; the flags: 4). -/
def State.reset : State where
  cnt := 0
  cw := false
  ccw := false
  evOut := .none
  boot := .delivering
  consumer := .poll
  last := 255
  displayCalls := [.bringUp]
  inputs := []
  onward := none
  reads := 0
  powerUps := 0

end Sys2Proof.Machine
end

