-- ==== Sys2Proof/Machine/Ops.lean ====
section
/-! DEFINITION. The named operations over the state. The block has no memory and no addresses (R30), takes no exception
(R80) and saves or restores nothing on entry or return (R83, R84), so there is no memory operation and no exception
entry here; the one access from outside is the read port (R68). -/

namespace Sys2Proof.Machine

open Sys2Proof

/-- The outcome with its next state changed by `g`; a stop stays as it is. -/
def mapNext (g : State → State) (o : Host.Outcome State Fault Refusal) : Host.Outcome State Fault Refusal :=
  match o with
  | .next s => .next (g s)
  | .fault f => .fault f
  | .refused r => .refused r

/-- What follows the listed inputs is set to `o`. -/
def State.withOnward (o : Option Nat) (s : State) : State := { s with onward := o }

/-- `out <- e` (R10). -/
def State.emit (e : Out) (s : State) : State := { s with evOut := e }

/-- `cw <- 1`: a clockwise rotation is armed (R19). -/
def State.armCw (s : State) : State := { s with cw := true }

/-- `ccw <- 1`: a counter-clockwise rotation is armed (R20). -/
def State.armCcw (s : State) : State := { s with ccw := true }

/-- A confirmation: both flags are cleared, the counter is written and the rotation classified, all together
(R56, R57). -/
def State.confirm (n : Count) (e : Out) (s : State) : State :=
  { s with cnt := n, cw := false, ccw := false, evOut := e }

/-- The counter after an increment: `(cnt + 1) mod 256` (R18). -/
def increment (c : Count) : Count := c + 1

/-- The counter after a decrement: `(cnt + 255) mod 256` (R18). -/
def decrement (c : Count) : Count := c + 255

/-- `ReadCount() = cnt` (R68), the `count` port of R55. -/
def readCount (s : State) : Count := s.cnt

/-- The `ev_out` port (R55), as its 2-bit code. -/
def evOutPort (s : State) : BitVec 2 := s.evOut.code

/-- No event is taken: the state holds and `ev_out` becomes `NONE` (R55). -/
def State.idle (s : State) : State := s.emit .none

/-- A step of the block completed while the consumer's read is in progress: the value it left is one the read may
return (R37; DEDUCED, log entry 6). -/
def State.noteOverlap (s : State) : State :=
  match s.consumer with
  | .reading first later => { s with consumer := .reading first (later ++ [s.cnt]) }
  | _ => s

/-- The boot stage after a reset: step 2 of R95 counts once step 1 is done (DEDUCED, log entry 11). -/
def BootStage.afterReset : BootStage → BootStage
  | .unconfigured => .unconfigured
  | .linesConfigured => .initialised
  | .initialised => .initialised
  | .delivering => .delivering

/-- The writes of R92; nothing of the consumer's is written (DESIGN CHOICE, log entry 10). -/
def State.resetBlock (s : State) : State :=
  { s with cnt := 0, cw := false, ccw := false, evOut := .none, boot := s.boot.afterReset }

/-- The reset of R92. A read in progress when the reset comes may return the value before it or the 0 after it, as if the
reset were a step of the block: the spec speaks only of steps that overlap a read (R37, D17, U6) and a reset is none
(DESIGN CHOICE, log entry 19). -/
def State.applyReset (s : State) : State := s.resetBlock.noteOverlap

end Sys2Proof.Machine
end

