-- ==== Sys2Proof/Machine/Consumer.lean ====
section
/-! DEFINITION. The reference consumer (R71 to R77): the display refresher's polling loop, one action an input. It
reads the block through the read port and writes only its own fields (R35, R86). -/

namespace Sys2Proof.Machine

open Sys2Proof

/-- One decimal digit as a character. -/
def digitChar (n : Nat) : Char := Char.ofNat (48 + n % 10)

/-- `decimal(v)`: the decimal numeral of `v`, 1 to 3 digits, no leading zeros (R73). -/
def decimal (v : Count) : List Char :=
  (if 100 ≤ v.toNat then [digitChar (v.toNat / 100)] else []) ++
  (if 10 ≤ v.toNat then [digitChar (v.toNat / 10)] else []) ++
  [digitChar v.toNat]

/-- The build-time arguments of a display call, in the order of R74's signatures (without the text). -/
def DisplayCall.parameters : DisplayCall → List Nat
  | .bringUp => [Config.displayWidth, Config.displayHeight, Config.displayAddress, Config.displayBus]
  | .clear => []
  | .drawText _ => [Config.textX, Config.textY, Config.textScale]
  | .flush => []

/-- The calls of one render, in the order R72 fixes. -/
def renderCalls (v : Count) : List DisplayCall := [.clear, .drawText (decimal v), .flush]

/-- The consumer calls the display. -/
def State.call (c : DisplayCall) (s : State) : State := { s with displayCalls := s.displayCalls ++ [c] }

/-- The value a read returns, given the values `cnt` held from its start to its end: the one value when no step
overlapped it, otherwise any of them (R37; free value, log entry 5). -/
def readResult (n : Nat) (first : Count) (later : List Count) : Count :=
  match later with
  | [] => first
  | _ => (first :: later).getD (Config.readOverlapPick n % (later.length + 1)) first

/-- `if v != last`: where the loop goes with the value it read (R72). -/
def State.compare (v : Count) (s : State) : State :=
  { s with consumer := if v = s.last then .sleep else .clear v, reads := s.reads + 1 }

/-- The consumer's next action (R72). Before it is started, and when its display did not come up, it has none (R77,
R95; DEDUCED, log entry 12). -/
def State.consumerAction (s : State) : State :=
  match s.consumer with
  | .notStarted => s
  | .displayFailed => s
  | .poll => { s with consumer := .reading (readCount s) [] }
  | .reading first later => s.compare (readResult s.reads first later)
  | .clear v => { s.call .clear with consumer := .draw v }
  | .draw v => { s.call (.drawText (decimal v)) with consumer := .flush v }
  | .flush v => { s.call .flush with consumer := .record v }
  | .record v => { s with last := v, consumer := .sleep }
  | .sleep => { s with consumer := .poll }

/-- `n` actions of the consumer with no step of the block between them. -/
def consumerActions : Nat → State → State
  | 0, s => s
  | n + 1, s => consumerActions n s.consumerAction

/-- How many actions one iteration takes when no step of the block falls into it: read begins, read ends, sleep, and
four more when the value is rendered. -/
def iterationLength (s : State) : Nat := if readCount s = s.last then 3 else 7

/-- The consumer's iterations over a sequence of sampled values: before each iteration the block's steps have brought
`cnt` to the next sample (R75, R76). -/
def pollSamples : List Count → State → State
  | [], s => s
  | v :: vs, s => pollSamples vs (consumerActions (iterationLength { s with cnt := v }) { s with cnt := v })

/-- The values rendered from a sampled sequence: those that differ from their predecessor, where the first one's
predecessor is `prev` (R76). -/
def renderedValues (prev : Count) : List Count → List Count
  | [] => []
  | v :: vs => (if v = prev then [] else [v]) ++ renderedValues v vs

end Sys2Proof.Machine
end

