-- ==== Sys2Proof/Machine/Boot.lean ====
section
/-! DEFINITION. Power-up and the boot actions of the environment (R29, R77, R81, R90, R95). Boot step 2 is the reset of
Ops.lean. -/

namespace Sys2Proof.Machine

open Sys2Proof

/-- Power was lost and returns: all state is lost (R29), so every field holds a free value until it is initialised, and
boot begins again (DEDUCED, log entry 9). -/
def State.powerUp (s : State) : State :=
  { s with
    cnt := (Config.powerUpValues s.powerUps).cnt
    cw := (Config.powerUpValues s.powerUps).cw
    ccw := (Config.powerUpValues s.powerUps).ccw
    evOut := (Config.powerUpValues s.powerUps).out
    last := (Config.powerUpValues s.powerUps).last
    boot := .unconfigured
    consumer := .notStarted
    displayCalls := []
    powerUps := s.powerUps + 1 }

/-- Boot step 1: the three lines become inputs with the pulls of `PULL_CONFIG` (R95; out of order it
stops, DESIGN CHOICE, log entry 8). -/
def configureLines (s : State) : Host.Outcome State Fault Refusal :=
  match s.boot with
  | .unconfigured => .next { s with boot := .linesConfigured }
  | .linesConfigured => .fault .bootOrder
  | .initialised => .fault .bootOrder
  | .delivering => .fault .bootOrder

/-- Boot step 3: falling-edge delivery is registered (R95; out of order it stops, DESIGN CHOICE, log entry 8). -/
def registerDelivery (s : State) : Host.Outcome State Fault Refusal :=
  match s.boot with
  | .unconfigured => .fault .bootOrder
  | .linesConfigured => .fault .bootOrder
  | .initialised => .next { s with boot := .delivering }
  | .delivering => .fault .bootOrder

/-- The consumer starts with `last = 255` (R71) and brings its display up; when that fails it halts (R77, R81). -/
def State.beginConsumer (displayOk : Bool) (s : State) : State :=
  { s.call .bringUp with last := 255, consumer := if displayOk then .poll else .displayFailed }

/-- Boot step 4, at any stage of the others (R95), and again after a failed bring-up (R81 "halt or retry startup"). -/
def startConsumer (displayOk : Bool) (s : State) : Host.Outcome State Fault Refusal :=
  match s.consumer with
  | .notStarted => .next (s.beginConsumer displayOk)
  | .displayFailed => .next (s.beginConsumer displayOk)
  | _ => .fault .bootOrder

end Sys2Proof.Machine
end

