-- ==== Sys2Proof/Machine/Button.lean ====
section
/-! DEFINITION. The button event EDGE_BTN (R64) and the event of any other line, EDGE_OTHER (R65). Neither reads
`LEVEL` (R50). -/

namespace Sys2Proof.Machine

open Sys2Proof

/-- EDGE_BTN: the counter is set to 0 and `RESET` classified; the flags are not written (R64). -/
def execEdgeBtn (_level : Level) (s : State) : Host.Outcome State Fault Refusal :=
  .next { s with cnt := 0, evOut := .reset }

/-- EDGE_OTHER: nothing but the classification `NONE` (R65). -/
def execEdgeOther (_level : Level) (s : State) : Host.Outcome State Fault Refusal :=
  .next (s.emit .none)

end Sys2Proof.Machine
end

