-- ==== Sys2Proof/Machine/Operands.lean ====
section
/-! DEFINITION. The one operand form: the 2-bit level snapshot (R44) and the whole constants the rules compare it
with (R50). -/

namespace Sys2Proof.Machine

open Sys2Proof

/-- `LEVEL[0]`, the rotation-A level: 1 is logic-high (R44). -/
def rotationA (l : Level) : Bool := l.getLsbD 0

/-- `LEVEL[1]`, the rotation-B level: 1 is logic-high (R44). -/
def rotationB (l : Level) : Bool := l.getLsbD 1

/-- The return-to-zero code: both rotation lines low (R44). -/
def returnToZero : Level := 0b00#2

/-- The counter-clockwise intermediate code: B low, A high (R44). -/
def ccwIntermediate : Level := 0b01#2

/-- The clockwise intermediate code: B high, A low (R44). -/
def cwIntermediate : Level := 0b10#2

/-- Both rotation lines high: matches no clause of any rule (R44, R50). -/
def bothHigh : Level := 0b11#2

end Sys2Proof.Machine
end

