-- ==== Sys2Proof/Machine/Flags.lean ====
section
/-! DEFINITION. The phase flags: the four control states they encode (R21) and the conditions of the clauses that set
and clear them (R56, R57). There is no other flag (R27). -/

namespace Sys2Proof.Machine

open Sys2Proof

/-- The control states (R21). All four are legal. -/
inductive Control where
  | idle
  | cwArmed
  | ccwArmed
  | bothArmed
  deriving DecidableEq, Repr

/-- The control state the flags `(cw, ccw)` encode (R21). -/
def State.control (s : State) : Control :=
  match s.cw, s.ccw with
  | false, false => .idle
  | true, false => .cwArmed
  | false, true => .ccwArmed
  | true, true => .bothArmed

/-- The arming clause of EDGE_A: `cw == 0 and ev.level == 0b10` (R56). -/
def armsCw (s : State) (l : Level) : Bool := !s.cw && l == cwIntermediate

/-- The confirming clause of EDGE_A: `ccw == 1 and ev.level == 0b00` (R56). -/
def confirmsCcw (s : State) (l : Level) : Bool := s.ccw && l == returnToZero

/-- The arming clause of EDGE_B: `ccw == 0 and ev.level == 0b01` (R57). -/
def armsCcw (s : State) (l : Level) : Bool := !s.ccw && l == ccwIntermediate

/-- The confirming clause of EDGE_B: `cw == 1 and ev.level == 0b00` (R57). -/
def confirmsCw (s : State) (l : Level) : Bool := s.cw && l == returnToZero

end Sys2Proof.Machine
end

