-- ==== Sys2Proof/Machine/Rotation.lean ====
section
/-! DEFINITION. The rotation-line events EDGE_A (R56) and EDGE_B (R57). Each condition reads the state held before the
step (R10). -/

namespace Sys2Proof.Machine

open Sys2Proof

/-- The arming clause of EDGE_A, after `out <- NONE` (R56). -/
def edgeAArming (level : Level) (s : State) : State :=
  if armsCw s level then (s.emit .none).armCw else s.emit .none

/-- EDGE_A: falling edge on rotation-A (R56). -/
def execEdgeA (level : Level) (s : State) : Host.Outcome State Fault Refusal :=
  .next (if confirmsCcw s level then (edgeAArming level s).confirm (decrement s.cnt) .ccw else edgeAArming level s)

/-- The arming clause of EDGE_B, after `out <- NONE` (R57). -/
def edgeBArming (level : Level) (s : State) : State :=
  if armsCcw s level then (s.emit .none).armCcw else s.emit .none

/-- EDGE_B: falling edge on rotation-B (R57). -/
def execEdgeB (level : Level) (s : State) : Host.Outcome State Fault Refusal :=
  .next (if confirmsCw s level then (edgeBArming level s).confirm (increment s.cnt) .cw else edgeBArming level s)

end Sys2Proof.Machine
end

