-- ==== Sys2Proof/Machine/Dispatch.lean ====
section
/-! DEFINITION. The dispatch of the four operations (R11, R49). -/

namespace Sys2Proof.Machine

open Sys2Proof

def exec (i : Instr) (s : State) : Host.Outcome State Fault Refusal :=
  match i with
  | .edgeA level => Sys2Proof.Machine.execEdgeA level s
  | .edgeB level => Sys2Proof.Machine.execEdgeB level s
  | .edgeBtn level => Sys2Proof.Machine.execEdgeBtn level s
  | .edgeOther level => Sys2Proof.Machine.execEdgeOther level s

end Sys2Proof.Machine
end

