-- ==== Sys2Proof/Machine/FrontEnd.lean ====
section
/-! DEFINITION. The front end's contract with the block (R43 to R47, R78, R85). The front end itself is outside the
block (R5); what it must hand over is coded here, and its faithfulness is a premise a claim may name, never an
assumption of the model (R85). -/

namespace Sys2Proof.Machine

open Sys2Proof

/-- The line a hardware pin number names: rotation-A, rotation-B and the button are contiguous from `GPIO_BASE`, every
other pin is the fourth identity (R43). -/
def lineOfPin (pin : Nat) : Line :=
  if pin = Config.gpioBase then .a
  else if pin = Config.gpioBase + 1 then .b
  else if pin = Config.gpioBase + 2 then .btn
  else .other

/-- The event word of a report: the line of the pin that fired, and of the snapshot (bit i is the level of line
`GPIO_BASE + i`: DESIGN CHOICE, log entry 7) the two rotation levels alone (R47). -/
def reportWord (pin snapshot : Nat) : EventWord :=
  (lineOfPin pin).code ++ BitVec.ofNat 2 snapshot

/-- The logic levels of the three monitored lines: bit 0 rotation-A, bit 1 rotation-B, bit 2 the button. -/
abbrev Pins := BitVec 3

/-- The lines that fall between two samples of the pins; a rising edge delivers nothing (R46, R67). -/
def fallingLines (before after : Pins) : List Line :=
  (if before.getLsbD 0 && !after.getLsbD 0 then [Line.a] else []) ++
  (if before.getLsbD 1 && !after.getLsbD 1 then [Line.b] else []) ++
  (if before.getLsbD 2 && !after.getLsbD 2 then [Line.btn] else [])

/-- The events of one change of the pins, each with the levels sampled atomically with its edge (R78); they are one
event a line (R82). -/
def edgeEvents (before after : Pins) : List EventWord :=
  (fallingLines before after).map fun l => l.code ++ after.extractLsb' 0 2

/-- `FRONTEND_DELIVERS_ALL_EDGES` (R85, 92_eei_decisions.md D11), a named premise: `evs` delivers every falling edge of
the pin history once, in time order, and edges that fall together in any order (R82). Its wording is DESIGN CHOICE (log entry 16). -/
def FrontEndDeliversAllEdges : List Pins → List EventWord → Prop
  | [], evs => evs = []
  | [_], evs => evs = []
  | p :: q :: rest, evs =>
    ∃ now later, evs = now ++ later ∧ now.Perm (edgeEvents p q) ∧ FrontEndDeliversAllEdges (q :: rest) later

/-- The same premise for a pin history without end: `chunks k` is what is delivered for the change from sample `k` to
sample `k + 1`, and the delivered sequence, finite or infinite (R85), is the chunks one after another. Its wording is
DESIGN CHOICE (log entry 16). -/
def FrontEndDeliversEveryEdge (pins : Nat → Pins) (chunks : Nat → List EventWord) : Prop :=
  ∀ k, (chunks k).Perm (edgeEvents (pins k) (pins (k + 1)))

/-- The levels of the rotation lines along the endless repetition of the grey-code cycle 11, 10, 00, 01 (R54). -/
def greyCode (k : Nat) : Level :=
  match k % 4 with
  | 0 => 0b11#2
  | 1 => 0b10#2
  | 2 => 0b00#2
  | _ => 0b01#2

end Sys2Proof.Machine
end

