-- ==== Sys2Proof/Machine/Delivery.lean ====
section
/-! DEFINITION. How each input reaches the machine: an event is one atomic step of the block once boot has finished
(R79, R82 to R84, R95), and the clocked realization takes at most one event a clock edge (R55, R103). -/

namespace Sys2Proof.Machine

open Sys2Proof

/-- The outcome with its next state seen by a read in progress (R37). -/
def withOverlap (o : Host.Outcome State Fault Refusal) : Host.Outcome State Fault Refusal :=
  mapNext State.noteOverlap o

/-- One delivered event: the decoded operation is executed; before boot has finished there is no step (R95, U17). -/
def deliverEvent (w : EventWord) (s : State) : Host.Outcome State Fault Refusal :=
  match s.boot with
  | .delivering => withOverlap (exec (decodeWord w) s)
  | .unconfigured => .fault .eventBeforeBoot
  | .linesConfigured => .fault .eventBeforeBoot
  | .initialised => .fault .eventBeforeBoot

/-- One rising edge of `clk` (R55): reset first, then the event presented, otherwise the state holds. Boot
gates the event alone (DEDUCED, log entry 17). -/
def clockEdge (p : Ports) (s : State) : Host.Outcome State Fault Refusal :=
  if p.rst then .next s.applyReset
  else if p.evValid then deliverEvent p.evWord s
  else .next s.idle

/-- What one input does. -/
def takeInput (i : Input) (s : State) : Host.Outcome State Fault Refusal :=
  match i with
  | .event w => deliverEvent w s
  | .report pin snapshot => deliverEvent (reportWord pin snapshot) s
  | .clock p => clockEdge p s
  | .reset => .next s.applyReset
  | .consumer => .next s.consumerAction
  | .powerUp => .next s.powerUp
  | .configureLines => configureLines s
  | .registerDelivery => registerDelivery s
  | .startConsumer displayOk => startConsumer displayOk s

/-- The event word an input delivers to the block, if it delivers one. -/
def Input.delivers : Input → Option EventWord
  | .event w => some w
  | .report pin snapshot => some (reportWord pin snapshot)
  | .clock p => if p.rst then none else if p.evValid then some p.evWord else none
  | .reset => none
  | .consumer => none
  | .powerUp => none
  | .configureLines => none
  | .registerDelivery => none
  | .startConsumer _ => none

/-- Whether an input is the reset of R92: the directive, or `rst` at a clock edge (R55). -/
def Input.resets : Input → Bool
  | .event _ => false
  | .report _ _ => false
  | .clock p => p.rst
  | .reset => true
  | .consumer => false
  | .powerUp => false
  | .configureLines => false
  | .registerDelivery => false
  | .startConsumer _ => false

/-- A finite sequence of inputs (R85), stopping at the first fault. -/
def takeInputs : List Input → State → Host.Outcome State Fault Refusal
  | [], s => .next s
  | i :: rest, s =>
    match takeInput i s with
    | .next s' => takeInputs rest s'
    | .fault f => .fault f
    | .refused r => .refused r

/-- The first `n` inputs of an infinite sequence (R85), stopping at the first fault. -/
def takeStream (ins : Nat → Input) : Nat → State → Host.Outcome State Fault Refusal
  | 0, s => .next s
  | n + 1, s =>
    match takeInput (ins 0) s with
    | .next s' => takeStream (fun k => ins (k + 1)) n s'
    | .fault f => .fault f
    | .refused r => .refused r

end Sys2Proof.Machine
end

