-- ==== Sys2Proof/Machine/Step.lean ====
section
/-! DEFINITION. One step of the machine: its next input is taken. There is no program counter and no fetch (R17, R40);
the sequencing is the order of the inputs. -/

namespace Sys2Proof.Machine

open Sys2Proof

/-- The step with no input waiting in the list: an environment that has fallen silent presents no event (R55), an endless
one presents its next input (R85; DESIGN CHOICE, log entry 1). -/
def stepOnward (s : State) : Host.Outcome State Fault Refusal :=
  match s.onward with
  | none => .next s.idle
  | some k => takeInput (Config.endlessInput k) (s.withOnward (some (k + 1)))

/-- The next input is taken (R82; DESIGN CHOICE, log entry 1). -/
def step (s : State) : Host.Outcome State Fault Refusal :=
  match s.inputs with
  | [] => stepOnward s
  | i :: rest => takeInput i { s with inputs := rest }

/-- `s` with the event word `w` as the next input, and event delivery registered so that it is taken. A number that is
no event word is not an instruction and changes nothing (DESIGN CHOICE, log entries 2, 14). -/
def State.withFetchWord (s : State) (nbits w : Nat) : State :=
  if wordFits (w % 2 ^ nbits) then
    { s with boot := .delivering, inputs := .event (BitVec.ofNat 4 (w % 2 ^ nbits)) :: s.inputs }
  else s

end Sys2Proof.Machine
end

