-- ==== Sys2Proof/Machine/Program.lean ====
section
/-! DEFINITION. Event programs (R53), the pseudo-events (R54), and the complete transition table of the rotation events
(R59) as data. -/

namespace Sys2Proof.Machine

open Sys2Proof

/-- One item of an event program: an event, or a directive (R53). -/
inductive Item where
  | event (i : Instr)
  | reset
  | read
  deriving DecidableEq, Repr

/-- What an event program leaves: the state, the classification of each event and the value of each `READ`. -/
structure Run where
  state : State
  outs  : List Out
  reads : List Count
  deriving DecidableEq, Repr

/-- The pseudo-event `CWSTEP` (R54): `(A,0b10)` then `(B,0b00)`. -/
def cwStep : List Instr := [.edgeA 0b10#2, .edgeB 0b00#2]

/-- The pseudo-event `CCWSTEP` (R54): `(B,0b01)` then `(A,0b00)`. -/
def ccwStep : List Instr := [.edgeB 0b01#2, .edgeA 0b00#2]

/-- The program of a list of events. -/
def eventItems (is : List Instr) : List Item := is.map .event

/-- The encoding of a program: the words of its events (R53). -/
def Item.words : List Item → List EventWord
  | [] => []
  | .event i :: p => encode i :: Item.words p
  | .reset :: p => Item.words p
  | .read :: p => Item.words p

/-- The outcome with one more classification, or one more read, before those of the rest. -/
def prependResults (outs : List Out) (reads : List Count) (o : Host.Outcome Run Fault Refusal) :
    Host.Outcome Run Fault Refusal :=
  match o with
  | .next r => .next { r with outs := outs ++ r.outs, reads := reads ++ r.reads }
  | .fault f => .fault f
  | .refused r => .refused r

/-- Run an event program (R53): each event is delivered as its encoded word, `RESET` applies R92, and `READ` is one
`ReadCount()` between two events. DESIGN CHOICE (log entry 20): `READ` is that read alone and leaves the state, the
consumer's fields with it, as it is; R53 does not say whether the rest of the iteration of R72 goes with it, as P5 shows
it. An iteration with its comparison and render is `consumerActions`. -/
def runProgram : List Item → State → Host.Outcome Run Fault Refusal
  | [], s => .next ⟨s, [], []⟩
  | .event i :: p, s =>
    match deliverEvent (encode i) s with
    | .next s' => prependResults [s'.evOut] [] (runProgram p s')
    | .fault f => .fault f
    | .refused r => .refused r
  | .reset :: p, s => runProgram p s.applyReset
  | .read :: p, s => prependResults [] [readCount s] (runProgram p s)

/-- One row of the transition table: flags before, event word, flags after, change of the counter, classification. -/
structure TableRow where
  cw    : Bool
  ccw   : Bool
  word  : EventWord
  cw'   : Bool
  ccw'  : Bool
  delta : Count
  out   : Out
  deriving DecidableEq, Repr

/-- The rows of R59 for events on rotation-A. -/
def tableA : List TableRow := [
  ⟨false, false, 0x0#4, false, false, 0, .none⟩,
  ⟨false, false, 0x1#4, false, false, 0, .none⟩,
  ⟨false, false, 0x2#4, true, false, 0, .none⟩,
  ⟨false, false, 0x3#4, false, false, 0, .none⟩,
  ⟨true, false, 0x0#4, true, false, 0, .none⟩,
  ⟨true, false, 0x1#4, true, false, 0, .none⟩,
  ⟨true, false, 0x2#4, true, false, 0, .none⟩,
  ⟨true, false, 0x3#4, true, false, 0, .none⟩,
  ⟨false, true, 0x0#4, false, false, -1, .ccw⟩,
  ⟨false, true, 0x1#4, false, true, 0, .none⟩,
  ⟨false, true, 0x2#4, true, true, 0, .none⟩,
  ⟨false, true, 0x3#4, false, true, 0, .none⟩,
  ⟨true, true, 0x0#4, false, false, -1, .ccw⟩,
  ⟨true, true, 0x1#4, true, true, 0, .none⟩,
  ⟨true, true, 0x2#4, true, true, 0, .none⟩,
  ⟨true, true, 0x3#4, true, true, 0, .none⟩]

/-- The rows of R59 for events on rotation-B. -/
def tableB : List TableRow := [
  ⟨false, false, 0x4#4, false, false, 0, .none⟩,
  ⟨false, false, 0x5#4, false, true, 0, .none⟩,
  ⟨false, false, 0x6#4, false, false, 0, .none⟩,
  ⟨false, false, 0x7#4, false, false, 0, .none⟩,
  ⟨true, false, 0x4#4, false, false, 1, .cw⟩,
  ⟨true, false, 0x5#4, true, true, 0, .none⟩,
  ⟨true, false, 0x6#4, true, false, 0, .none⟩,
  ⟨true, false, 0x7#4, true, false, 0, .none⟩,
  ⟨false, true, 0x4#4, false, true, 0, .none⟩,
  ⟨false, true, 0x5#4, false, true, 0, .none⟩,
  ⟨false, true, 0x6#4, false, true, 0, .none⟩,
  ⟨false, true, 0x7#4, false, true, 0, .none⟩,
  ⟨true, true, 0x4#4, false, false, 1, .cw⟩,
  ⟨true, true, 0x5#4, true, true, 0, .none⟩,
  ⟨true, true, 0x6#4, true, true, 0, .none⟩,
  ⟨true, true, 0x7#4, true, true, 0, .none⟩]

/-- The complete transition table of the rotation events (R59). -/
def rotationTable : List TableRow := tableA ++ tableB

end Sys2Proof.Machine
end

