-- ==== Sys2Proof/Safety.lean ====
section
/-! DEFINITION. The predicates claims are stated in: which inputs a booted machine may meet, whose actions they are,
what two states share, and the invariant that every step keeps. -/

namespace Sys2Proof.Machine

open Sys2Proof

/-- The inputs of the machine in operation, after boot (R79): events in any form, clock edges, resets, and the
consumer's actions. -/
def Input.operating : Input → Bool
  | .event _ => true
  | .report _ _ => true
  | .clock _ => true
  | .reset => true
  | .consumer => true
  | .powerUp => false
  | .configureLines => false
  | .registerDelivery => false
  | .startConsumer _ => false

/-- The inputs that are the consumer's own (R14, R86). -/
def Input.ofConsumer : Input → Bool
  | .event _ => false
  | .report _ _ => false
  | .clock _ => false
  | .reset => false
  | .consumer => true
  | .powerUp => false
  | .configureLines => false
  | .registerDelivery => false
  | .startConsumer _ => true

/-- The two states agree on everything of the block and of its environment's boot. -/
def SameBlock (s t : State) : Prop :=
  s.cnt = t.cnt ∧ s.cw = t.cw ∧ s.ccw = t.ccw ∧ s.evOut = t.evOut ∧ s.boot = t.boot

/-- The two states agree on everything that is the consumer's own (R86). -/
def SameConsumer (s t : State) : Prop :=
  s.consumer = t.consumer ∧ s.last = t.last ∧ s.displayCalls = t.displayCalls ∧ s.reads = t.reads

/-- While a read is in progress, the latest value it may return is the current counter (R37). -/
def State.WindowCurrent (s : State) : Prop :=
  ∀ first later, s.consumer = .reading first later → (first :: later).getLast? = some s.cnt

/-- The calls of a render that has begun and not ended. -/
def pendingCalls : ConsumerPhase → List DisplayCall
  | .notStarted => []
  | .displayFailed => []
  | .poll => []
  | .reading _ _ => []
  | .clear _ => []
  | .draw _ => [.clear]
  | .flush v => [.clear, .drawText (decimal v)]
  | .record _ => []
  | .sleep => []

/-- What the consumer's place says about `last` and the values `vs` rendered so far (R71, R72). -/
def RenderedBy (s : State) (vs : List Count) : Prop :=
  match s.consumer with
  | .notStarted => vs = []
  | .displayFailed => vs = []
  | .record v => vs.getLast? = some v
  | .clear v => (255 :: vs).getLast? = some s.last ∧ v ≠ s.last
  | .draw v => (255 :: vs).getLast? = some s.last ∧ v ≠ s.last
  | .flush v => (255 :: vs).getLast? = some s.last ∧ v ≠ s.last
  | .poll => (255 :: vs).getLast? = some s.last
  | .reading _ _ => (255 :: vs).getLast? = some s.last
  | .sleep => (255 :: vs).getLast? = some s.last

/-- The display calls are bring-ups, then whole renders clear, draw, flush, then at most the beginning of one render;
each rendered value differs from the one before it, the sentinel 255 standing before the first (R71, R72, R76). -/
def State.CallsInOrder (s : State) : Prop :=
  ∃ k vs, s.displayCalls = List.replicate k .bringUp ++ vs.flatMap renderCalls ++ pendingCalls s.consumer ∧
    (255 :: vs).IsChain (· ≠ ·) ∧ RenderedBy s vs

/-- The invariant of the machine. -/
structure State.Inv (s : State) : Prop where
  window : s.WindowCurrent
  calls  : s.CallsInOrder

end Sys2Proof.Machine
end

