-- ==== Sys2Proof/Certificates/Slice0/Obligations.lean ====
section
/-! DEFINITION. The statements for the provers. Each docstring names the rule it formalises, or the choice it rests on. -/

open Sys2Proof Sys2Proof.Machine

/-! ### Encoding -/

/-- Words written out from the field layout of R42, R43 and R52 (codes: the spec's own decisions D3, D4) decode to the
events they stand for, and the pseudo-events have the words R54 lists. -/
def Obligations.ListedWordsDecode : Prop :=
  decodeWord 0b0000#4 = .edgeA 0b00#2 ∧ decodeWord 0b0010#4 = .edgeA 0b10#2 ∧
  decodeWord 0b0100#4 = .edgeB 0b00#2 ∧ decodeWord 0b0101#4 = .edgeB 0b01#2 ∧
  decodeWord 0b1000#4 = .edgeBtn 0b00#2 ∧ decodeWord 0b1010#4 = .edgeBtn 0b10#2 ∧
  decodeWord 0b1101#4 = .edgeOther 0b01#2 ∧ decodeWord 0b1111#4 = .edgeOther 0b11#2 ∧
  encodeAll cwStep = [0x2#4, 0x4#4] ∧ encodeAll ccwStep = [0x5#4, 0x0#4]

/-- Encoding and decoding are inverse on event sequences, in both directions, and a number decodes exactly when it is
the word of the event it decodes to (R42, R49, R51, R52; codes and layout are decisions D3, D4). -/
def Obligations.EncodeDecodeInverse : Prop :=
  (∀ is : List Instr, decodeAll (encodeAll is) = is) ∧
  (∀ ws : List EventWord, encodeAll (decodeAll ws) = ws) ∧
  (∀ (n : Nat) (i : Instr), decodeNat n = .ok i ↔ n = (encode i).toNat) ∧
  (∀ n : Nat, 16 ≤ n → decodeNat n = .error (.notFourBits n))

/-- The level snapshot written `0bXY` has the rotation-B level in bit 1 and the rotation-A level in bit 0 (R9, R44), and
the four named codes are the rows of R44's table. -/
def Obligations.LevelBitsAreBThenA : Prop :=
  (∀ x y : Bool, rotationB (BitVec.ofBool x ++ BitVec.ofBool y) = x ∧ rotationA (BitVec.ofBool x ++ BitVec.ofBool y) = y) ∧
  (rotationB returnToZero = false ∧ rotationA returnToZero = false) ∧
  (rotationB ccwIntermediate = false ∧ rotationA ccwIntermediate = true) ∧
  (rotationB cwIntermediate = true ∧ rotationA cwIntermediate = false) ∧
  (rotationB bothHigh = true ∧ rotationA bothHigh = true)

/-- The `ev_out` port shows the 2-bit code of the classification (R48; the codes are the spec's decision D5). -/
def Obligations.OutputPortShowsTheCode : Prop :=
  ∀ s : State,
    (evOutPort s = 0b00#2 ↔ s.evOut = .none) ∧ (evOutPort s = 0b01#2 ↔ s.evOut = .cw) ∧
    (evOutPort s = 0b10#2 ↔ s.evOut = .ccw) ∧ (evOutPort s = 0b11#2 ↔ s.evOut = .reset)

/-! ### The four operations: results and frames -/

/-- EDGE_A (R56), whole: it completes on every state and level, with the flags, counter and classification of the
pseudocode and everything else unchanged. -/
def Obligations.EdgeAResult : Prop :=
  ∀ (level : Level) (s : State),
    exec (.edgeA level) s = .next { s with
      cw := if s.ccw = true ∧ level = 0b00#2 then false
            else if s.cw = false ∧ level = 0b10#2 then true else s.cw
      ccw := if s.ccw = true ∧ level = 0b00#2 then false else s.ccw
      cnt := if s.ccw = true ∧ level = 0b00#2 then BitVec.ofNat 8 ((s.cnt.toNat + 255) % 256) else s.cnt
      evOut := if s.ccw = true ∧ level = 0b00#2 then .ccw else .none }

/-- EDGE_B (R57), whole: it completes on every state and level, with the flags, counter and classification of the
pseudocode and everything else unchanged. -/
def Obligations.EdgeBResult : Prop :=
  ∀ (level : Level) (s : State),
    exec (.edgeB level) s = .next { s with
      ccw := if s.cw = true ∧ level = 0b00#2 then false
             else if s.ccw = false ∧ level = 0b01#2 then true else s.ccw
      cw := if s.cw = true ∧ level = 0b00#2 then false else s.cw
      cnt := if s.cw = true ∧ level = 0b00#2 then BitVec.ofNat 8 ((s.cnt.toNat + 1) % 256) else s.cnt
      evOut := if s.cw = true ∧ level = 0b00#2 then .cw else .none }

/-- EDGE_BTN (R64), whole: on every state and level the counter becomes 0 and `RESET` is classified; the flags and
everything else are unchanged. -/
def Obligations.EdgeBtnResult : Prop :=
  ∀ (level : Level) (s : State), exec (.edgeBtn level) s = .next { s with cnt := 0, evOut := .reset }

/-- EDGE_OTHER (R65, the no-op of the spec's decision D7): on every state and level nothing changes but the
classification, which is `NONE`. -/
def Obligations.EdgeOtherResult : Prop :=
  ∀ (level : Level) (s : State), exec (.edgeOther level) s = .next { s with evOut := .none }

/-- The block is one total step function of `(cnt, cw, ccw)` and the event word (R11): executing any of the 16 words
from any state completes, writes the three fields and the classification from that function, and writes nothing else. -/
def Obligations.ExecIsTheStepFunction : Prop :=
  ∃ f : Count × Bool × Bool → EventWord → (Count × Bool × Bool) × Out,
    ∀ (s : State) (w : EventWord),
      exec (decodeWord w) s = .next { s with
        cnt := (f (s.cnt, s.cw, s.ccw) w).1.1
        cw := (f (s.cnt, s.cw, s.ccw) w).1.2.1
        ccw := (f (s.cnt, s.cw, s.ccw) w).1.2.2
        evOut := (f (s.cnt, s.cw, s.ccw) w).2 }

/-- The machine agrees with every row of the transition table of R59 (which the spec derives from R56 and R57), and the
table has exactly one row for each control state and rotation event. -/
def Obligations.RotationTableAgrees : Prop :=
  (∀ row ∈ rotationTable, ∀ s : State, s.cw = row.cw → s.ccw = row.ccw →
    exec (decodeWord row.word) s = .next { s with
      cw := row.cw', ccw := row.ccw', cnt := s.cnt + row.delta, evOut := row.out }) ∧
  (∀ (cw ccw : Bool) (w : EventWord), w.toNat < 8 →
    (rotationTable.filter fun row => row.cw == cw && row.ccw == ccw && row.word == w).length = 1)

/-- The two clauses of a rotation event never both fire, and a rotation event changes the counter by at most one, with
the matching classification (R58, which the spec derives from R56 and R57). -/
def Obligations.RotationChangesCountByAtMostOne : Prop :=
  (∀ (s : State) (l : Level), ¬(armsCw s l = true ∧ confirmsCcw s l = true)) ∧
  (∀ (s : State) (l : Level), ¬(armsCcw s l = true ∧ confirmsCw s l = true)) ∧
  (∀ (l : Level) (s : State), ∃ t, exec (.edgeA l) s = .next t ∧
    ((t.evOut = .none ∧ t.cnt = s.cnt) ∨ (t.evOut = .ccw ∧ t.cnt + 1 = s.cnt))) ∧
  (∀ (l : Level) (s : State), ∃ t, exec (.edgeB l) s = .next t ∧
    ((t.evOut = .none ∧ t.cnt = s.cnt) ∨ (t.evOut = .cw ∧ t.cnt = s.cnt + 1)))

/-- The levels that equal none of an operation's constants trigger nothing, `0b11` on every rotation line among them,
and EDGE_BTN and EDGE_OTHER do not read the level (R50, with the corner cases of R56 and R57). -/
def Obligations.UnmatchedLevelsTriggerNothing : Prop :=
  (∀ s : State,
    exec (.edgeA 0b01#2) s = .next { s with evOut := .none } ∧
    exec (.edgeA 0b11#2) s = .next { s with evOut := .none } ∧
    exec (.edgeB 0b10#2) s = .next { s with evOut := .none } ∧
    exec (.edgeB 0b11#2) s = .next { s with evOut := .none }) ∧
  (∀ (l l' : Level) (s : State),
    exec (.edgeBtn l) s = exec (.edgeBtn l') s ∧ exec (.edgeOther l) s = exec (.edgeOther l') s)

/-! ### Who writes what -/

/-- Only an arming event sets a phase flag, and only a confirmation or a reset clears one (R19, R20). Power-up, which
loses all state (R29), is the one input left out. -/
def Obligations.OnlyArmingSetsAndConfirmingClearsFlags : Prop :=
  ∀ (inp : Input) (s t : State), inp ≠ .powerUp → takeInput inp s = .next t →
    (s.cw = false → t.cw = true → ∃ w, inp.delivers = some w ∧ decodeWord w = .edgeA 0b10#2) ∧
    (s.cw = true → t.cw = false → inp.resets = true ∨ ∃ w, inp.delivers = some w ∧
      ((decodeWord w = .edgeA 0b00#2 ∧ s.ccw = true) ∨ decodeWord w = .edgeB 0b00#2)) ∧
    (s.ccw = false → t.ccw = true → ∃ w, inp.delivers = some w ∧ decodeWord w = .edgeB 0b01#2) ∧
    (s.ccw = true → t.ccw = false → inp.resets = true ∨ ∃ w, inp.delivers = some w ∧
      ((decodeWord w = .edgeB 0b00#2 ∧ s.cw = true) ∨ decodeWord w = .edgeA 0b00#2))

/-- The counter is written only by an increment, a decrement and a clear (R18), and by a reset (R92). Power-up, which
loses all state (R29), is the one input left out. -/
def Obligations.OnlyThreeWritesOfTheCounter : Prop :=
  ∀ (inp : Input) (s t : State), inp ≠ .powerUp → takeInput inp s = .next t →
    t.cnt = s.cnt ∨ (inp.resets = true ∧ t.cnt = 0) ∨
    ∃ w, inp.delivers = some w ∧
      ((decodeWord w = .edgeB 0b00#2 ∧ s.cw = true ∧ t.cnt = s.cnt + 1) ∨
       (decodeWord w = .edgeA 0b00#2 ∧ s.ccw = true ∧ t.cnt = s.cnt + 255) ∨
       ((∃ l, decodeWord w = .edgeBtn l) ∧ t.cnt = 0))

/-- A wrap sets nothing and records nothing (R27): whatever the counter holds, an event leaves everything but the
counter the same. -/
def Obligations.WrapRecordsNothing : Prop :=
  ∀ (i : Instr) (s : State) (c : Count), ∃ t u,
    exec i s = .next t ∧ exec i { s with cnt := c } = .next u ∧ u = { t with cnt := u.cnt }

/-- Access is fixed per agent (R86, the spec's decision D21): no action of the consumer changes the block, and no event,
clock edge or reset changes `last` or calls the display (R74, R99). Two clauses are the model's choice: that a reset
leaves `last` as it is (R93 lists 255; assumption log entry 10), and that the output stays through an action of the
consumer (entry 15). -/
def Obligations.AgentsWriteOnlyTheirOwn : Prop :=
  ∀ (inp : Input) (s t : State), takeInput inp s = .next t →
    (inp.ofConsumer = true → SameBlock t s) ∧
    (inp.operating = true → inp.ofConsumer = false → t.last = s.last ∧ t.displayCalls = s.displayCalls)

/-- Reading has no side effect and the consumer has no write path to the block (R35): however many actions the consumer
performs, the block is unchanged and the read port shows the same value. That the output stays through these actions,
and not only `cnt`, `cw` and `ccw`, is the model's choice (assumption log entry 15); that the boot stage stays is no part
of R35 either. -/
def Obligations.ReadingHasNoSideEffect : Prop :=
  ∀ (n : Nat) (s : State),
    SameBlock (consumerActions n s) s ∧ readCount (consumerActions n s) = readCount s ∧ readCount s = s.cnt

/-- The phase flags and the classification are hidden from the consumer (R23, R69): whatever they hold, the consumer
does the same. -/
def Obligations.FlagsHiddenFromConsumer : Prop :=
  ∀ (n : Nat) (s : State) (cw ccw : Bool) (o : Out),
    SameConsumer (consumerActions n { s with cw := cw, ccw := ccw, evOut := o }) (consumerActions n s)

/-! ### Sequences of events -/

/-- BOTH_ARMED is reached from IDLE by either sequence of R22 (which the spec derives), the counter unchanged, and the
line whose return to zero comes first decides the direction (R59). -/
def Obligations.BothArmedIsReachedAndLeft : Prop :=
  ∀ s : State, s.boot = .delivering → s.control = .idle →
    ∃ t u, takeInputs [.event 0x2#4, .event 0x5#4] s = .next t ∧ takeInputs [.event 0x5#4, .event 0x2#4] s = .next u ∧
      t.control = .bothArmed ∧ u.control = .bothArmed ∧ t.cnt = s.cnt ∧ u.cnt = s.cnt ∧
      (∃ v, takeInput (.event 0x0#4) t = .next v ∧ v.control = .idle ∧ v.cnt + 1 = s.cnt ∧ v.evOut = .ccw) ∧
      (∃ v, takeInput (.event 0x4#4) t = .next v ∧ v.control = .idle ∧ v.cnt = s.cnt + 1 ∧ v.evOut = .cw)

/-- The canonical clockwise step from every control state and counter (R60, which the spec derives from R59). -/
def Obligations.CanonicalClockwiseStep : Prop :=
  ∀ s : State, s.boot = .delivering →
    ∃ t, runProgram (eventItems cwStep) s = .next ⟨t, [.none, .cw], []⟩ ∧
      t.cnt = BitVec.ofNat 8 ((s.cnt.toNat + 1) % 256) ∧ t.control = .idle

/-- The canonical counter-clockwise step from every control state and counter (R61, which the spec derives from R59). -/
def Obligations.CanonicalCounterClockwiseStep : Prop :=
  ∀ s : State, s.boot = .delivering →
    ∃ t, runProgram (eventItems ccwStep) s = .next ⟨t, [.none, .ccw], []⟩ ∧
      t.cnt = BitVec.ofNat 8 ((s.cnt.toNat + 255) % 256) ∧ t.control = .idle

/-- Any sequence of canonical steps in both directions (`true` clockwise), from any booted state: the counter moves by
exactly the difference of the two numbers of steps, modulo 256, and each step is classified once (R60, R61). -/
def Obligations.DetentsAreCountedExactly : Prop :=
  ∀ (ds : List Bool) (s : State), s.boot = .delivering →
    ∃ t, runProgram (eventItems (ds.flatMap fun d => if d then cwStep else ccwStep)) s =
        .next ⟨t, ds.flatMap fun d => [.none, if d then .cw else .ccw], []⟩ ∧
      t.cnt = s.cnt + BitVec.ofNat 8 (ds.count true) - BitVec.ofNat 8 (ds.count false) ∧
      (ds ≠ [] → t.control = .idle)

/-- Over any sequence of events without a button event, bouncy or not, the counter moves by exactly the number of `CW`
less the number of `CCW` classifications, modulo 256, and each event gives one classification (R11, R56, R57, R65). -/
def Obligations.CounterFollowsClassifications : Prop :=
  ∀ (is : List Instr) (s : State), s.boot = .delivering → (∀ i ∈ is, i.line ≠ .btn) →
    ∃ r, runProgram (eventItems is) s = .next r ∧ r.outs.length = is.length ∧
      r.state.cnt = s.cnt + BitVec.ofNat 8 (r.outs.count .cw) - BitVec.ofNat 8 (r.outs.count .ccw)

/-- Bounce of one contact (R62, R66): a repeated arming event changes nothing, and a repeated confirming event counts
once. -/
def Obligations.BounceOfOneContactCountsOnce : Prop :=
  ∀ (n : Nat) (s : State), s.boot = .delivering →
    (∃ t, runProgram (List.replicate (n + 1) (.event (.edgeA 0b10#2))) s = .next ⟨t, List.replicate (n + 1) .none, []⟩ ∧
      t.cnt = s.cnt ∧ t.cw = true ∧ t.ccw = s.ccw) ∧
    (∃ t, runProgram (List.replicate (n + 1) (.event (.edgeB 0b01#2))) s = .next ⟨t, List.replicate (n + 1) .none, []⟩ ∧
      t.cnt = s.cnt ∧ t.cw = s.cw ∧ t.ccw = true) ∧
    (s.cw = true → ∃ t, runProgram (List.replicate (n + 1) (.event (.edgeB 0b00#2))) s =
      .next ⟨t, .cw :: List.replicate n .none, []⟩ ∧ t.cnt = s.cnt + 1 ∧ t.control = .idle) ∧
    (s.ccw = true → ∃ t, runProgram (List.replicate (n + 1) (.event (.edgeA 0b00#2))) s =
      .next ⟨t, .ccw :: List.replicate n .none, []⟩ ∧ t.cnt + 1 = s.cnt ∧ t.control = .idle)

/-- An armed flag has no timeout (R63, which the spec derives): over any sequence of events, button events included, in
which no rotation is classified, a flag that was set stays set. -/
def Obligations.ArmedFlagHasNoTimeout : Prop :=
  ∀ (is : List Instr) (s : State), s.boot = .delivering →
    ∃ r, runProgram (eventItems is) s = .next r ∧
      ((∀ o ∈ r.outs, o ≠ .cw ∧ o ≠ .ccw) →
        (s.cw = true → r.state.cw = true) ∧ (s.ccw = true → r.state.ccw = true))

/-- A bouncing press gives one `RESET` an event, and its effect on the state is that of one (R64, R66). -/
def Obligations.BouncingButtonActsOnce : Prop :=
  ∀ (levels : List Level) (s : State), s.boot = .delivering → levels ≠ [] →
    ∃ t, runProgram (eventItems (levels.map .edgeBtn)) s = .next ⟨t, List.replicate levels.length .reset, []⟩ ∧
      t.cnt = 0 ∧ t.cw = s.cw ∧ t.ccw = s.ccw

/-! ### Reset, boot, delivery and the step -/

/-- Reset, by the directive or by `rst` at a clock edge (R92, R94): it completes from every state, the three fields are
0 and the output is `NONE`, and nothing of the consumer's own and no waiting input changes but a read in progress. The
flags' value, the output's and the mechanism are the spec's decisions D6, D22 and D8. That `last` and the consumer's
other fields are unchanged is the model's choice (assumption log entry 10; R93 lists 255 for `last` after reset), and so
is that a read in progress sees the reset (entry 19). -/
def Obligations.ResetClearsTheBlock : Prop :=
  ∀ (inp : Input) (s : State), inp.resets = true →
    ∃ t, takeInput inp s = .next t ∧ t.cnt = 0 ∧ t.cw = false ∧ t.ccw = false ∧ t.evOut = .none ∧ t.control = .idle ∧
      t.last = s.last ∧ t.displayCalls = s.displayCalls ∧ t.inputs = s.inputs ∧ t.onward = s.onward ∧ t.reads = s.reads ∧
      ((∀ first later, s.consumer ≠ .reading first later) → t.consumer = s.consumer)

/-- The machine right after reset (R28, R71, R93): the counter's 0 and the consumer's 255 are the source's, the flags'
and the output's values the spec's decisions D6 and D22. -/
def Obligations.ResetStateValues : Prop :=
  State.reset.cnt = 0 ∧ State.reset.cw = false ∧ State.reset.ccw = false ∧ State.reset.evOut = .none ∧
  State.reset.control = .idle ∧ State.reset.last = 255 ∧ readCount State.reset = 0

/-- Power-up followed by the boot of R95, with the consumer started at any point of it, reaches the reset state; the
order of the block's own steps is the spec's decision D27. That the reset state is the end of boot, with the environment
as it then is, is the model's choice (assumption log entries 2 and 3), and power-up as an input its reading (entry 9). The
inputs to come and the two counters of the model stand as they do. -/
def Obligations.BootReachesReset : Prop :=
  ∀ (s : State) (before after : List Input), before ++ after = [.configureLines, .reset, .registerDelivery] →
    takeInputs ([.powerUp] ++ before ++ [.startConsumer true] ++ after) s =
      .next { State.reset with
        inputs := s.inputs, onward := s.onward, reads := s.reads, powerUps := s.powerUps + 1 }

/-- A boot action outside the order of R95 stops the environment's run by name (the model's choice: assumption log
entry 8). -/
def Obligations.BootOutOfOrderStops : Prop :=
  ∀ s : State,
    (s.boot ≠ .unconfigured → takeInput .configureLines s = .fault .bootOrder) ∧
    (s.boot ≠ .initialised → takeInput .registerDelivery s = .fault .bootOrder)

/-- An event that arrives before boot has finished has no step (R95; 93_implementation_defined.md U17 "stuck"). Three
things are the model's: that the stop is a fault of this name, also in the stage after the reset (assumption log
entry 8), and that a clock edge with a valid event is such an event (its reading, entry 17: R55 gives that edge its step
with no condition on boot, and V-L2-10 has an event taken after `rst` alone). -/
def Obligations.EventBeforeBootIsStuck : Prop :=
  ∀ (inp : Input) (w : EventWord) (s : State), inp.delivers = some w → s.boot ≠ .delivering →
    takeInput inp s = .fault .eventBeforeBoot

/-- No exception exists (R80): every event has a result from every state, and once boot has finished no sequence of
events, clock edges, resets and consumer actions, however long, ever stops the machine (R101; that every delivered event
is then taken is the spec's decision D26, R79). That the machine still delivers after a reset is the model's reading
(assumption log entry 11). -/
def Obligations.NothingEverStopsTheBootedMachine : Prop :=
  (∀ (i : Instr) (s : State), ∃ t, exec i s = .next t) ∧
  (∀ (ins : List Input) (s : State), s.boot = .delivering → (∀ i ∈ ins, i.operating = true) →
    ∃ t, takeInputs ins s = .next t ∧ t.boot = .delivering)

/-- A step runs the decoded event: with a word waiting after boot, the step is `exec` of the word's event on the state
without it, seen by a read in progress, which leaves a consumer that is not reading as it is. And a word placed by
`withFetchWord` is run next. That one step runs one event is R6 and R11; that a step takes the first of a held list is
the model's choice (assumption log entry 1), that `withFetchWord` places the word first and registers delivery is entry
2, and that a read in progress notes the step is entry 6. -/
def Obligations.StepRunsTheDecodedEvent : Prop :=
  (∀ (s : State) (w : EventWord) (rest : List Input), s.inputs = .event w :: rest → s.boot = .delivering →
    step s = withOverlap (exec (decodeWord w) { s with inputs := rest })) ∧
  (∀ (i : Instr) (s : State), s.inputs = .event (encode i) :: s.inputs.tail → s.boot = .delivering →
    (∀ first later, s.consumer ≠ .reading first later) → step s = exec i { s with inputs := s.inputs.tail }) ∧
  (∀ (i : Instr) (s : State), (∀ first later, s.consumer ≠ .reading first later) →
    step (s.withFetchWord 4 (encode i).toNat) = exec i { s with boot := .delivering })

/-- Nothing persists a loss of power (R29): what power-up leaves does not depend on what any field of the block, the
consumer or the boot held. Power-up as an input is the model's (assumption log entry 9); the inputs to come and the two
counters of the model are no state of the machine. -/
def Obligations.PowerUpForgetsEverything : Prop :=
  ∀ s t : State, s.inputs = t.inputs → s.onward = t.onward → s.reads = t.reads → s.powerUps = t.powerUps →
    takeInput .powerUp s = takeInput .powerUp t

/-! ### The clocked realization -/

/-- One rising clock edge (R55, R103; the ports are the spec's own choice, decisions D2 and D22): reset first, then the
event presented, else the state holds and the output becomes `NONE`. -/
def Obligations.ClockEdgeFollowsThePorts : Prop :=
  ∀ (p : Ports) (s : State), s.boot = .delivering →
    (p.rst = true → takeInput (.clock p) s = takeInput .reset s) ∧
    (p.rst = false → p.evValid = true → takeInput (.clock p) s = takeInput (.event p.evWord) s) ∧
    (p.rst = false → p.evValid = false → takeInput (.clock p) s = .next { s with evOut := .none })

/-- A clocked run models no more than the step function (R55): any sequence of clock edges leaves the counter and the
flags that the sequence of its resets and valid events alone leaves. That events are still taken after `rst` rests on
the model's reading that a reset leaves delivery registered (assumption log entry 11). -/
def Obligations.ClockedRunRefinesEventRun : Prop :=
  ∀ (ps : List Ports) (s : State), s.boot = .delivering →
    ∃ t u, takeInputs (ps.map .clock) s = .next t ∧
      takeInputs (ps.flatMap fun p => if p.rst then [.reset] else if p.evValid then [.event p.evWord] else []) s = .next u ∧
      t.cnt = u.cnt ∧ t.cw = u.cw ∧ t.ccw = u.ccw

/-! ### The read port and the consumer -/

/-- Visibility (R37, the spec's decision D17): a read that starts after an event has completed returns the value that
event left, and a read overlapped by events returns the value before them or the value after one of them. `compare v`
is the end of a read that returned `v`: that a read begins and ends in two actions, the second with the comparison, is
the model's reading (assumption log entry 6). The directive `READ` lists the values the counter held; that it leaves the
consumer in the middle of its own read is the model's choice (entry 20). -/
def Obligations.ReadsSeeWholeSteps : Prop :=
  ∀ s : State, s.boot = .delivering → s.consumer = .poll →
    (∀ i : Instr, ∃ t u, takeInput (.event (encode i)) s = .next t ∧ takeInput .consumer t = .next u ∧
      takeInput .consumer u = .next (u.compare t.cnt)) ∧
    (∀ is : List Instr, ∃ t r v, takeInput .consumer s = .next t ∧
      runProgram (is.flatMap fun i => [.event i, .read]) t = .next r ∧
      v ∈ s.cnt :: r.reads ∧ takeInput .consumer r.state = .next (r.state.compare v))

/-- One iteration of the consumer with no step inside it (R72): if the counter differs from `last`, the display is
called clear, draw, flush, in that order and with the decimal numeral, and `last` becomes the counter; otherwise there
is no display call. -/
def Obligations.ConsumerIteration : Prop :=
  ∀ s : State, s.consumer = .poll →
    consumerActions (iterationLength s) s = { s with
      last := s.cnt
      displayCalls := s.displayCalls ++
        (if s.cnt = s.last then [] else [.clear, .drawText (decimal s.cnt), .flush])
      reads := s.reads + 1 }

/-- Render count (R76, which the spec derives from R71 and R72): over a sampled sequence the consumer renders exactly
the samples that differ from their predecessor, in order; and the two counts of 90_conflicts.md C2. -/
def Obligations.RendersOncePerChange : Prop :=
  (∀ (vs : List Count) (s : State), s.consumer = .poll →
    (pollSamples vs s).displayCalls = s.displayCalls ++ (renderedValues s.last vs).flatMap renderCalls ∧
    (pollSamples vs s).last = vs.getLast?.getD s.last ∧ (pollSamples vs s).consumer = .poll) ∧
  (∀ (prev : Count) (vs : List Count), (renderedValues prev vs).length =
    ((List.range vs.length).filter fun i => decide (vs[i]? ≠ (prev :: vs)[i]?)).length) ∧
  renderedValues 0 [0, 0, 1, 1, 1, 2] = [1, 2] ∧ renderedValues 255 [0, 0, 1, 1, 1, 2] = [0, 1, 2]

/-- The numeral drawn is the decimal numeral without leading zeros (R73; no padding is the spec's decision D24). -/
def Obligations.DecimalNumeral : Prop :=
  ∀ v : Count, decimal v = Nat.toDigits 10 v.toNat

/-- Starting the consumer, or starting it again after a failure (the retry of R81), sets `last` to 255 (R71) and brings
the display up; if that fails nothing is ever rendered and the block still steps as it does otherwise (R77). That such
a consumer does not act or read at all, where the spec says only that nothing is rendered, is the model's reading
(assumption log entry 12), and that the output stays through the start is the model's choice (entry 15). -/
def Obligations.FailedDisplayRendersNothing : Prop :=
  ∀ s : State, s.consumer = .notStarted ∨ s.consumer = .displayFailed →
    ∃ t, takeInput (.startConsumer false) s = .next t ∧ t.last = 255 ∧ t.displayCalls = s.displayCalls ++ [.bringUp] ∧
      SameBlock t s ∧ (∀ n, consumerActions n t = t) ∧
      (s.boot = .delivering → ∀ w, takeInput (.event w) t = exec (decodeWord w) t)

/-- The consumer cannot influence the block (R35, R77, R91): whatever the consumer does between and during the block's
steps, removing all its actions from a run leaves a run that ends with the same block. That the output, too, is the same
rests on the model's choice that it stays through the consumer's actions (assumption log entry 15). -/
def Obligations.ConsumerErasure : Prop :=
  ∀ (ins : List Input) (s t : State), takeInputs ins s = .next t →
    ∃ u, takeInputs (ins.filter fun i => !i.ofConsumer) s = .next u ∧ SameBlock t u

/-! ### The front end -/

/-- A report is coded by its pin and the two rotation levels alone (R43, R47, R78): the three pins from `GPIO_BASE` name
the three lines, any other pin is the fourth identity, and the button's level and every further bit of the snapshot
are discarded. That bit i of the snapshot is line `GPIO_BASE + i` is the model's choice (assumption log entry 7). -/
def Obligations.ReportsKeepOnlyTheRotationLevels : Prop :=
  (∀ snapshot : Nat,
    decodeWord (reportWord Config.gpioBase snapshot) = .edgeA (BitVec.ofNat 2 snapshot) ∧
    decodeWord (reportWord (Config.gpioBase + 1) snapshot) = .edgeB (BitVec.ofNat 2 snapshot) ∧
    decodeWord (reportWord (Config.gpioBase + 2) snapshot) = .edgeBtn (BitVec.ofNat 2 snapshot)) ∧
  (∀ pin snapshot : Nat, pin < Config.gpioBase ∨ Config.gpioBase + 2 < pin →
    decodeWord (reportWord pin snapshot) = .edgeOther (BitVec.ofNat 2 snapshot)) ∧
  (∀ (pin a b : Nat) (s : State), a % 4 = b % 4 → takeInput (.report pin a) s = takeInput (.report pin b) s)

/-- Under the named premise that the front end delivers every edge (R85, D11), one turn of the grey-code cycle of R54
delivers the canonical words and counts one, in either direction, from any control state; and when both rotation lines
fall together from IDLE, nothing is counted in whichever order they are delivered (R46, R82). The wording of the
premise, on which the last clause turns (edges of one change before those of the next, each with the levels after the
change), is the model's choice (assumption log entry 16). -/
def Obligations.GreyCodeTurnCountsOne : Prop :=
  ∀ (button : Bool) (s : State) (evs : List EventWord), s.boot = .delivering →
    (FrontEndDeliversAllEdges ([0b11#2, 0b10#2, 0b00#2, 0b01#2, 0b11#2].map fun l => BitVec.ofBool button ++ l) evs →
      evs = [0x2#4, 0x4#4] ∧
      ∃ t, takeInputs (evs.map .event) s = .next t ∧ t.cnt = s.cnt + 1 ∧ t.control = .idle ∧ t.evOut = .cw) ∧
    (FrontEndDeliversAllEdges ([0b11#2, 0b01#2, 0b00#2, 0b10#2, 0b11#2].map fun l => BitVec.ofBool button ++ l) evs →
      evs = [0x5#4, 0x0#4] ∧
      ∃ t, takeInputs (evs.map .event) s = .next t ∧ t.cnt + 1 = s.cnt ∧ t.control = .idle ∧ t.evOut = .ccw) ∧
    (FrontEndDeliversAllEdges ([0b11#2, 0b00#2].map fun l => BitVec.ofBool button ++ l) evs → s.control = .idle →
      ∃ t, takeInputs (evs.map .event) s = .next t ∧ t.cnt = s.cnt ∧ t.control = .idle ∧ t.evOut = .none)

/-! ### Input without end -/

/-- The block's input may be infinite (R85): a machine with no input left in its list and an endless environment behind
it takes, in `n` steps, the next `n` inputs of that environment, whatever they are. That the inputs stand in the state
as a list with what follows it is the model's choice (assumption log entry 1). -/
def Obligations.EndlessInputIsTakenStepByStep : Prop :=
  ∀ (n k : Nat) (s : State), s.inputs = [] → s.onward = some k →
    Sys2Proof.core.run n s =
      mapNext (State.withOnward (some (k + n))) (takeStream (fun j => Config.endlessInput (k + j)) n s)

/-- Any infinite sequence of events, clock edges, resets and consumer actions is taken without a stop, and a machine
whose input is finite goes on as well once it has fallen silent (R79, R80, R85, R101). That the machine still delivers
after a reset is the model's reading (assumption log entry 11), that it takes no event when its input has ended the
model's choice (entry 1). -/
def Obligations.EndlessInputNeverStopsTheBootedMachine : Prop :=
  (∀ (ins : Nat → Input) (s : State), s.boot = .delivering → (∀ k, (ins k).operating = true) →
    ∀ n, ∃ t, takeStream ins n s = .next t ∧ t.boot = .delivering) ∧
  (∀ (n : Nat) (s : State), s.inputs = [] → s.onward = none →
    Sys2Proof.core.run (n + 1) s = .next { s with evOut := .none })

/-- An encoder that turns without end, under the named premise that the front end delivers every edge of the endless pin
history (R85, D11): after any number `n` of full turns the counter has moved up by `n`, modulo 256 (R54, R60). The
wording of the premise is the model's choice (assumption log entry 16). -/
def Obligations.EndlessTurnsAreCounted : Prop :=
  ∀ (button : Bool) (pins : Nat → Pins) (chunks : Nat → List EventWord) (s : State), s.boot = .delivering →
    (∀ k, pins k = BitVec.ofBool button ++ greyCode k) → FrontEndDeliversEveryEdge pins chunks →
    ∀ n, ∃ t, takeInputs (((List.range (4 * n)).flatMap chunks).map .event) s = .next t ∧
      t.cnt = s.cnt + BitVec.ofNat 8 n ∧ (0 < n → t.control = .idle)

/-! ### The invariant -/

/-- Every step keeps the invariant: a read in progress may always return the current counter, and the display calls are
whole renders in order, each of a value that differs from the one before (R37, R71, R72, R76). Some inputs keep it only
by the model's choices and readings: across a reset, that `last` stays (assumption log entry 10; were it set to R93's
255, the value 0 could be drawn twice running) and that a read in progress sees the reset (entry 19); under an event,
that such a read notes the step (entry 6); that a running consumer is not started again (entry 8), that loss of power
begins the record of calls anew (entry 9), and that a consumer whose display failed does not act (entry 12). -/
def Obligations.StepKeepsInvariant : Prop :=
  ∀ s t : State, s.Inv → step s = .next t → t.Inv

/-- The reset state has the invariant. That its consumer is at the top of the loop, with one bring-up recorded, is the
model's choice (assumption log entry 3); its `last` of 255 is R71's. -/
def Obligations.ResetHasInvariant : Prop := State.reset.Inv
end

