-- ==== Sys2Proof/Laws/PerInstr.lean ====
section
/-! SUPPORT. Facts about each instruction as syntax: its event word carries its line in bits 3:2 and its level in bits
1:0 (R42, R49), and it is well formed (R45, R51). -/

namespace Sys2Proof.Laws.Encoding

open Sys2Proof

/-- The word of `i` holds its line's code and its level in the two fields, and `i` is well formed. -/
def Statement (i : Instr) : Prop :=
  lineField (encode i) = i.line.code ∧ levelField (encode i) = i.level ∧ i.wellFormed = true

/-- The high field of a concatenation. -/
theorem lineField_append (c l : BitVec 2) : lineField (c ++ l) = c := by
  revert c l; decide

/-- The low field of a concatenation. -/
theorem levelField_append (c l : BitVec 2) : levelField (c ++ l) = l := by
  revert c l; decide

theorem edgeA (level : Level) : Statement (.edgeA level) :=
  ⟨lineField_append _ _, levelField_append _ _, rfl⟩

theorem edgeB (level : Level) : Statement (.edgeB level) :=
  ⟨lineField_append _ _, levelField_append _ _, rfl⟩

theorem edgeBtn (level : Level) : Statement (.edgeBtn level) :=
  ⟨lineField_append _ _, levelField_append _ _, rfl⟩

theorem edgeOther (level : Level) : Statement (.edgeOther level) :=
  ⟨lineField_append _ _, levelField_append _ _, rfl⟩

end Sys2Proof.Laws.Encoding
end

