-- ==== Sys2Proof/Laws/State.lean ====
section
/-! SUPPORT. One lemma per field per update of the state, each true by `rfl`, and the same for the two updates that
look at the consumer's phase. -/

namespace Sys2Proof.Machine.State

open Sys2Proof Sys2Proof.Machine

variable (s : State)

@[simp] theorem withOnward_cnt (o : Option Nat) : (s.withOnward o).cnt = s.cnt := rfl
@[simp] theorem withOnward_cw (o : Option Nat) : (s.withOnward o).cw = s.cw := rfl
@[simp] theorem withOnward_ccw (o : Option Nat) : (s.withOnward o).ccw = s.ccw := rfl
@[simp] theorem withOnward_evOut (o : Option Nat) : (s.withOnward o).evOut = s.evOut := rfl
@[simp] theorem withOnward_boot (o : Option Nat) : (s.withOnward o).boot = s.boot := rfl
@[simp] theorem withOnward_consumer (o : Option Nat) : (s.withOnward o).consumer = s.consumer := rfl
@[simp] theorem withOnward_last (o : Option Nat) : (s.withOnward o).last = s.last := rfl
@[simp] theorem withOnward_displayCalls (o : Option Nat) : (s.withOnward o).displayCalls = s.displayCalls := rfl
@[simp] theorem withOnward_inputs (o : Option Nat) : (s.withOnward o).inputs = s.inputs := rfl
@[simp] theorem withOnward_onward (o : Option Nat) : (s.withOnward o).onward = o := rfl
@[simp] theorem withOnward_reads (o : Option Nat) : (s.withOnward o).reads = s.reads := rfl
@[simp] theorem withOnward_powerUps (o : Option Nat) : (s.withOnward o).powerUps = s.powerUps := rfl

@[simp] theorem emit_cnt (e : Out) : (s.emit e).cnt = s.cnt := rfl
@[simp] theorem emit_cw (e : Out) : (s.emit e).cw = s.cw := rfl
@[simp] theorem emit_ccw (e : Out) : (s.emit e).ccw = s.ccw := rfl
@[simp] theorem emit_evOut (e : Out) : (s.emit e).evOut = e := rfl
@[simp] theorem emit_boot (e : Out) : (s.emit e).boot = s.boot := rfl
@[simp] theorem emit_consumer (e : Out) : (s.emit e).consumer = s.consumer := rfl
@[simp] theorem emit_last (e : Out) : (s.emit e).last = s.last := rfl
@[simp] theorem emit_displayCalls (e : Out) : (s.emit e).displayCalls = s.displayCalls := rfl
@[simp] theorem emit_inputs (e : Out) : (s.emit e).inputs = s.inputs := rfl
@[simp] theorem emit_onward (e : Out) : (s.emit e).onward = s.onward := rfl
@[simp] theorem emit_reads (e : Out) : (s.emit e).reads = s.reads := rfl
@[simp] theorem emit_powerUps (e : Out) : (s.emit e).powerUps = s.powerUps := rfl

@[simp] theorem armCw_cnt : (s.armCw).cnt = s.cnt := rfl
@[simp] theorem armCw_cw : (s.armCw).cw = true := rfl
@[simp] theorem armCw_ccw : (s.armCw).ccw = s.ccw := rfl
@[simp] theorem armCw_evOut : (s.armCw).evOut = s.evOut := rfl
@[simp] theorem armCw_boot : (s.armCw).boot = s.boot := rfl
@[simp] theorem armCw_consumer : (s.armCw).consumer = s.consumer := rfl
@[simp] theorem armCw_last : (s.armCw).last = s.last := rfl
@[simp] theorem armCw_displayCalls : (s.armCw).displayCalls = s.displayCalls := rfl
@[simp] theorem armCw_inputs : (s.armCw).inputs = s.inputs := rfl
@[simp] theorem armCw_onward : (s.armCw).onward = s.onward := rfl
@[simp] theorem armCw_reads : (s.armCw).reads = s.reads := rfl
@[simp] theorem armCw_powerUps : (s.armCw).powerUps = s.powerUps := rfl

@[simp] theorem armCcw_cnt : (s.armCcw).cnt = s.cnt := rfl
@[simp] theorem armCcw_cw : (s.armCcw).cw = s.cw := rfl
@[simp] theorem armCcw_ccw : (s.armCcw).ccw = true := rfl
@[simp] theorem armCcw_evOut : (s.armCcw).evOut = s.evOut := rfl
@[simp] theorem armCcw_boot : (s.armCcw).boot = s.boot := rfl
@[simp] theorem armCcw_consumer : (s.armCcw).consumer = s.consumer := rfl
@[simp] theorem armCcw_last : (s.armCcw).last = s.last := rfl
@[simp] theorem armCcw_displayCalls : (s.armCcw).displayCalls = s.displayCalls := rfl
@[simp] theorem armCcw_inputs : (s.armCcw).inputs = s.inputs := rfl
@[simp] theorem armCcw_onward : (s.armCcw).onward = s.onward := rfl
@[simp] theorem armCcw_reads : (s.armCcw).reads = s.reads := rfl
@[simp] theorem armCcw_powerUps : (s.armCcw).powerUps = s.powerUps := rfl

@[simp] theorem confirm_cnt (n : Count) (e : Out) : (s.confirm n e).cnt = n := rfl
@[simp] theorem confirm_cw (n : Count) (e : Out) : (s.confirm n e).cw = false := rfl
@[simp] theorem confirm_ccw (n : Count) (e : Out) : (s.confirm n e).ccw = false := rfl
@[simp] theorem confirm_evOut (n : Count) (e : Out) : (s.confirm n e).evOut = e := rfl
@[simp] theorem confirm_boot (n : Count) (e : Out) : (s.confirm n e).boot = s.boot := rfl
@[simp] theorem confirm_consumer (n : Count) (e : Out) : (s.confirm n e).consumer = s.consumer := rfl
@[simp] theorem confirm_last (n : Count) (e : Out) : (s.confirm n e).last = s.last := rfl
@[simp] theorem confirm_displayCalls (n : Count) (e : Out) : (s.confirm n e).displayCalls = s.displayCalls := rfl
@[simp] theorem confirm_inputs (n : Count) (e : Out) : (s.confirm n e).inputs = s.inputs := rfl
@[simp] theorem confirm_onward (n : Count) (e : Out) : (s.confirm n e).onward = s.onward := rfl
@[simp] theorem confirm_reads (n : Count) (e : Out) : (s.confirm n e).reads = s.reads := rfl
@[simp] theorem confirm_powerUps (n : Count) (e : Out) : (s.confirm n e).powerUps = s.powerUps := rfl

@[simp] theorem idle_cnt : (s.idle).cnt = s.cnt := rfl
@[simp] theorem idle_cw : (s.idle).cw = s.cw := rfl
@[simp] theorem idle_ccw : (s.idle).ccw = s.ccw := rfl
@[simp] theorem idle_evOut : (s.idle).evOut = Out.none := rfl
@[simp] theorem idle_boot : (s.idle).boot = s.boot := rfl
@[simp] theorem idle_consumer : (s.idle).consumer = s.consumer := rfl
@[simp] theorem idle_last : (s.idle).last = s.last := rfl
@[simp] theorem idle_displayCalls : (s.idle).displayCalls = s.displayCalls := rfl
@[simp] theorem idle_inputs : (s.idle).inputs = s.inputs := rfl
@[simp] theorem idle_onward : (s.idle).onward = s.onward := rfl
@[simp] theorem idle_reads : (s.idle).reads = s.reads := rfl
@[simp] theorem idle_powerUps : (s.idle).powerUps = s.powerUps := rfl

@[simp] theorem resetBlock_cnt : (s.resetBlock).cnt = 0 := rfl
@[simp] theorem resetBlock_cw : (s.resetBlock).cw = false := rfl
@[simp] theorem resetBlock_ccw : (s.resetBlock).ccw = false := rfl
@[simp] theorem resetBlock_evOut : (s.resetBlock).evOut = Out.none := rfl
@[simp] theorem resetBlock_boot : (s.resetBlock).boot = s.boot.afterReset := rfl
@[simp] theorem resetBlock_consumer : (s.resetBlock).consumer = s.consumer := rfl
@[simp] theorem resetBlock_last : (s.resetBlock).last = s.last := rfl
@[simp] theorem resetBlock_displayCalls : (s.resetBlock).displayCalls = s.displayCalls := rfl
@[simp] theorem resetBlock_inputs : (s.resetBlock).inputs = s.inputs := rfl
@[simp] theorem resetBlock_onward : (s.resetBlock).onward = s.onward := rfl
@[simp] theorem resetBlock_reads : (s.resetBlock).reads = s.reads := rfl
@[simp] theorem resetBlock_powerUps : (s.resetBlock).powerUps = s.powerUps := rfl

@[simp] theorem call_cnt (c : DisplayCall) : (s.call c).cnt = s.cnt := rfl
@[simp] theorem call_cw (c : DisplayCall) : (s.call c).cw = s.cw := rfl
@[simp] theorem call_ccw (c : DisplayCall) : (s.call c).ccw = s.ccw := rfl
@[simp] theorem call_evOut (c : DisplayCall) : (s.call c).evOut = s.evOut := rfl
@[simp] theorem call_boot (c : DisplayCall) : (s.call c).boot = s.boot := rfl
@[simp] theorem call_consumer (c : DisplayCall) : (s.call c).consumer = s.consumer := rfl
@[simp] theorem call_last (c : DisplayCall) : (s.call c).last = s.last := rfl
@[simp] theorem call_displayCalls (c : DisplayCall) : (s.call c).displayCalls = s.displayCalls ++ [c] := rfl
@[simp] theorem call_inputs (c : DisplayCall) : (s.call c).inputs = s.inputs := rfl
@[simp] theorem call_onward (c : DisplayCall) : (s.call c).onward = s.onward := rfl
@[simp] theorem call_reads (c : DisplayCall) : (s.call c).reads = s.reads := rfl
@[simp] theorem call_powerUps (c : DisplayCall) : (s.call c).powerUps = s.powerUps := rfl

@[simp] theorem compare_cnt (v : Count) : (s.compare v).cnt = s.cnt := rfl
@[simp] theorem compare_cw (v : Count) : (s.compare v).cw = s.cw := rfl
@[simp] theorem compare_ccw (v : Count) : (s.compare v).ccw = s.ccw := rfl
@[simp] theorem compare_evOut (v : Count) : (s.compare v).evOut = s.evOut := rfl
@[simp] theorem compare_boot (v : Count) : (s.compare v).boot = s.boot := rfl
@[simp] theorem compare_consumer (v : Count) : (s.compare v).consumer = if v = s.last then .sleep else .clear v := rfl
@[simp] theorem compare_last (v : Count) : (s.compare v).last = s.last := rfl
@[simp] theorem compare_displayCalls (v : Count) : (s.compare v).displayCalls = s.displayCalls := rfl
@[simp] theorem compare_inputs (v : Count) : (s.compare v).inputs = s.inputs := rfl
@[simp] theorem compare_onward (v : Count) : (s.compare v).onward = s.onward := rfl
@[simp] theorem compare_reads (v : Count) : (s.compare v).reads = s.reads + 1 := rfl
@[simp] theorem compare_powerUps (v : Count) : (s.compare v).powerUps = s.powerUps := rfl

@[simp] theorem powerUp_cnt : (s.powerUp).cnt = (Config.powerUpValues s.powerUps).cnt := rfl
@[simp] theorem powerUp_cw : (s.powerUp).cw = (Config.powerUpValues s.powerUps).cw := rfl
@[simp] theorem powerUp_ccw : (s.powerUp).ccw = (Config.powerUpValues s.powerUps).ccw := rfl
@[simp] theorem powerUp_evOut : (s.powerUp).evOut = (Config.powerUpValues s.powerUps).out := rfl
@[simp] theorem powerUp_boot : (s.powerUp).boot = BootStage.unconfigured := rfl
@[simp] theorem powerUp_consumer : (s.powerUp).consumer = ConsumerPhase.notStarted := rfl
@[simp] theorem powerUp_last : (s.powerUp).last = (Config.powerUpValues s.powerUps).last := rfl
@[simp] theorem powerUp_displayCalls : (s.powerUp).displayCalls = [] := rfl
@[simp] theorem powerUp_inputs : (s.powerUp).inputs = s.inputs := rfl
@[simp] theorem powerUp_onward : (s.powerUp).onward = s.onward := rfl
@[simp] theorem powerUp_reads : (s.powerUp).reads = s.reads := rfl
@[simp] theorem powerUp_powerUps : (s.powerUp).powerUps = s.powerUps + 1 := rfl

@[simp] theorem beginConsumer_cnt (ok : Bool) : (s.beginConsumer ok).cnt = s.cnt := rfl
@[simp] theorem beginConsumer_cw (ok : Bool) : (s.beginConsumer ok).cw = s.cw := rfl
@[simp] theorem beginConsumer_ccw (ok : Bool) : (s.beginConsumer ok).ccw = s.ccw := rfl
@[simp] theorem beginConsumer_evOut (ok : Bool) : (s.beginConsumer ok).evOut = s.evOut := rfl
@[simp] theorem beginConsumer_boot (ok : Bool) : (s.beginConsumer ok).boot = s.boot := rfl
@[simp] theorem beginConsumer_consumer (ok : Bool) : (s.beginConsumer ok).consumer = if ok then .poll else .displayFailed := rfl
@[simp] theorem beginConsumer_last (ok : Bool) : (s.beginConsumer ok).last = 255 := rfl
@[simp] theorem beginConsumer_displayCalls (ok : Bool) : (s.beginConsumer ok).displayCalls = s.displayCalls ++ [.bringUp] := rfl
@[simp] theorem beginConsumer_inputs (ok : Bool) : (s.beginConsumer ok).inputs = s.inputs := rfl
@[simp] theorem beginConsumer_onward (ok : Bool) : (s.beginConsumer ok).onward = s.onward := rfl
@[simp] theorem beginConsumer_reads (ok : Bool) : (s.beginConsumer ok).reads = s.reads := rfl
@[simp] theorem beginConsumer_powerUps (ok : Bool) : (s.beginConsumer ok).powerUps = s.powerUps := rfl

@[simp] theorem noteOverlap_cnt : s.noteOverlap.cnt = s.cnt := by
  unfold noteOverlap; split <;> rfl
@[simp] theorem noteOverlap_cw : s.noteOverlap.cw = s.cw := by
  unfold noteOverlap; split <;> rfl
@[simp] theorem noteOverlap_ccw : s.noteOverlap.ccw = s.ccw := by
  unfold noteOverlap; split <;> rfl
@[simp] theorem noteOverlap_evOut : s.noteOverlap.evOut = s.evOut := by
  unfold noteOverlap; split <;> rfl
@[simp] theorem noteOverlap_boot : s.noteOverlap.boot = s.boot := by
  unfold noteOverlap; split <;> rfl
@[simp] theorem noteOverlap_last : s.noteOverlap.last = s.last := by
  unfold noteOverlap; split <;> rfl
@[simp] theorem noteOverlap_displayCalls : s.noteOverlap.displayCalls = s.displayCalls := by
  unfold noteOverlap; split <;> rfl
@[simp] theorem noteOverlap_inputs : s.noteOverlap.inputs = s.inputs := by
  unfold noteOverlap; split <;> rfl
@[simp] theorem noteOverlap_onward : s.noteOverlap.onward = s.onward := by
  unfold noteOverlap; split <;> rfl
@[simp] theorem noteOverlap_reads : s.noteOverlap.reads = s.reads := by
  unfold noteOverlap; split <;> rfl
@[simp] theorem noteOverlap_powerUps : s.noteOverlap.powerUps = s.powerUps := by
  unfold noteOverlap; split <;> rfl

@[simp] theorem applyReset_cnt : s.applyReset.cnt = 0 := by
  simp [applyReset]
@[simp] theorem applyReset_cw : s.applyReset.cw = false := by
  simp [applyReset]
@[simp] theorem applyReset_ccw : s.applyReset.ccw = false := by
  simp [applyReset]
@[simp] theorem applyReset_evOut : s.applyReset.evOut = Out.none := by
  simp [applyReset]
@[simp] theorem applyReset_boot : s.applyReset.boot = s.boot.afterReset := by
  simp [applyReset]
@[simp] theorem applyReset_last : s.applyReset.last = s.last := by
  simp [applyReset]
@[simp] theorem applyReset_displayCalls : s.applyReset.displayCalls = s.displayCalls := by
  simp [applyReset]
@[simp] theorem applyReset_inputs : s.applyReset.inputs = s.inputs := by
  simp [applyReset]
@[simp] theorem applyReset_onward : s.applyReset.onward = s.onward := by
  simp [applyReset]
@[simp] theorem applyReset_reads : s.applyReset.reads = s.reads := by
  simp [applyReset]
@[simp] theorem applyReset_powerUps : s.applyReset.powerUps = s.powerUps := by
  simp [applyReset]

@[simp] theorem consumerAction_cnt : s.consumerAction.cnt = s.cnt := by
  unfold consumerAction; split <;> rfl
@[simp] theorem consumerAction_cw : s.consumerAction.cw = s.cw := by
  unfold consumerAction; split <;> rfl
@[simp] theorem consumerAction_ccw : s.consumerAction.ccw = s.ccw := by
  unfold consumerAction; split <;> rfl
@[simp] theorem consumerAction_evOut : s.consumerAction.evOut = s.evOut := by
  unfold consumerAction; split <;> rfl
@[simp] theorem consumerAction_boot : s.consumerAction.boot = s.boot := by
  unfold consumerAction; split <;> rfl
@[simp] theorem consumerAction_inputs : s.consumerAction.inputs = s.inputs := by
  unfold consumerAction; split <;> rfl
@[simp] theorem consumerAction_onward : s.consumerAction.onward = s.onward := by
  unfold consumerAction; split <;> rfl
@[simp] theorem consumerAction_powerUps : s.consumerAction.powerUps = s.powerUps := by
  unfold consumerAction; split <;> rfl

end Sys2Proof.Machine.State
end

