-- ==== Sys2Proof/Laws/Ops.lean ====
section
/-! SUPPORT. One lemma per shared operation saying once what it can do, for the proofs to cite. -/

namespace Sys2Proof

/-- Coding a line and reading the code back. -/
@[simp] theorem Line.ofCode_code (l : Line) : Line.ofCode l.code = l := by cases l <;> rfl

/-- Every 2-bit code is the code of the line it names. -/
@[simp] theorem Line.code_ofCode (c : BitVec 2) : (Line.ofCode c).code = c := by
  revert c; decide

/-- A word is the concatenation of its two fields (R42). -/
theorem append_fields (w : EventWord) : lineField w ++ levelField w = w := by
  revert w; decide

@[simp] theorem Instr.line_ofLine (l : Line) (v : Level) : (Instr.ofLine l v).line = l := by cases l <;> rfl
@[simp] theorem Instr.level_ofLine (l : Line) (v : Level) : (Instr.ofLine l v).level = v := by cases l <;> rfl
@[simp] theorem Instr.ofLine_line_level (i : Instr) : Instr.ofLine i.line i.level = i := by cases i <;> rfl

end Sys2Proof

namespace Sys2Proof.Machine

open Sys2Proof

/-- A step of the block seen by the consumer: only a read in progress changes, by one more value. -/
theorem State.noteOverlap_consumer (s : State) :
    (∃ first later, s.consumer = .reading first later ∧ s.noteOverlap.consumer = .reading first (later ++ [s.cnt])) ∨
    ((∀ first later, s.consumer ≠ .reading first later) ∧ s.noteOverlap = s) := by
  unfold State.noteOverlap
  split
  · next first later h => exact .inl ⟨first, later, h, rfl⟩
  · next h => exact .inr ⟨h, rfl⟩

@[simp] theorem mapNext_next (g : State → State) (s : State) : mapNext g (.next s) = .next (g s) := rfl
@[simp] theorem mapNext_fault (g : State → State) (f : Fault) : mapNext g (.fault f) = .fault f := rfl
@[simp] theorem mapNext_refused (g : State → State) (r : Refusal) : mapNext g (.refused r) = .refused r := rfl

/-- Changes of the next state compose. -/
theorem mapNext_mapNext (g h : State → State) (o : Host.Outcome State Fault Refusal) :
    mapNext g (mapNext h o) = mapNext (fun s => g (h s)) o := by
  cases o <;> rfl

@[simp] theorem withOverlap_next (s : State) : withOverlap (.next s) = .next s.noteOverlap := rfl

/-- After boot, a delivered event is one execution of its operation. -/
theorem deliverEvent_delivering {s : State} (h : s.boot = .delivering) (w : EventWord) :
    deliverEvent w s = withOverlap (exec (decodeWord w) s) := by
  simp [deliverEvent, h]

/-- A level is one of the four rows of R44. -/
theorem level_cases (l : Level) : l = returnToZero ∨ l = ccwIntermediate ∨ l = cwIntermediate ∨ l = bothHigh := by
  revert l; decide

theorem armsCw_iff (s : State) (l : Level) : armsCw s l = true ↔ s.cw = false ∧ l = cwIntermediate := by
  simp [armsCw]

theorem confirmsCcw_iff (s : State) (l : Level) : confirmsCcw s l = true ↔ s.ccw = true ∧ l = returnToZero := by
  simp [confirmsCcw]

theorem armsCcw_iff (s : State) (l : Level) : armsCcw s l = true ↔ s.ccw = false ∧ l = ccwIntermediate := by
  simp [armsCcw]

theorem confirmsCw_iff (s : State) (l : Level) : confirmsCw s l = true ↔ s.cw = true ∧ l = returnToZero := by
  simp [confirmsCw]

/-- The arming clause of EDGE_A writes `cw` and the output only. -/
theorem edgeAArming_eq (level : Level) (s : State) :
    edgeAArming level s = { s with cw := s.cw || armsCw s level, evOut := .none } := by
  unfold edgeAArming
  cases h : armsCw s level <;> simp [State.emit, State.armCw]

/-- The arming clause of EDGE_B writes `ccw` and the output only. -/
theorem edgeBArming_eq (level : Level) (s : State) :
    edgeBArming level s = { s with ccw := s.ccw || armsCcw s level, evOut := .none } := by
  unfold edgeBArming
  cases h : armsCcw s level <;> simp [State.emit, State.armCcw]

@[simp] theorem takeInputs_nil (s : State) : takeInputs [] s = .next s := rfl

/-- The first input is taken, then the rest. -/
theorem takeInputs_cons_next {i : Input} {s t : State} (h : takeInput i s = .next t) (rest : List Input) :
    takeInputs (i :: rest) s = takeInputs rest t := by
  simp [takeInputs, h]

/-- A run that ends passed through the state its first input left. -/
theorem takeInputs_cons_cases {i : Input} {rest : List Input} {s t : State} (h : takeInputs (i :: rest) s = .next t) :
    ∃ u, takeInput i s = .next u ∧ takeInputs rest u = .next t := by
  cases hi : takeInput i s with
  | next u => exact ⟨u, rfl, by simpa [takeInputs, hi] using h⟩
  | fault f => simp [takeInputs, hi] at h
  | refused r => simp [takeInputs, hi] at h

/-- Runs compose. -/
theorem takeInputs_append (xs ys : List Input) {s t : State} (h : takeInputs xs s = .next t) :
    takeInputs (xs ++ ys) s = takeInputs ys t := by
  induction xs generalizing s with
  | nil =>
    obtain rfl : s = t := by simpa using h
    rfl
  | cons x xs ih =>
    obtain ⟨u, hu, hr⟩ := takeInputs_cons_cases h
    rw [List.cons_append, takeInputs_cons_next hu, ih hr]

/-- A read that no step overlapped returns the one value it saw. -/
@[simp] theorem readResult_nil (n : Nat) (first : Count) : readResult n first [] = first := rfl

/-- A read returns one of the values it saw (R37). -/
theorem readResult_mem (n : Nat) (first : Count) (later : List Count) :
    readResult n first later ∈ first :: later := by
  unfold readResult
  split
  · simp
  · next h =>
    have hlt : Config.readOverlapPick n % (later.length + 1) < (first :: later).length := by
      simpa using Nat.mod_lt _ (Nat.succ_pos _)
    rw [List.getD_eq_getElem _ _ hlt]
    exact List.getElem_mem _

/-- Actions of the consumer compose. -/
theorem consumerActions_add (m n : Nat) (s : State) :
    consumerActions (m + n) s = consumerActions n (consumerActions m s) := by
  induction m generalizing s with
  | zero => simp [consumerActions]
  | succ m ih => rw [Nat.succ_add]; exact ih _

/-- After boot, the next event of a program is executed and its classification heads the results. -/
theorem runProgram_event {s t : State} (i : Instr) (p : List Item) (h : deliverEvent (encode i) s = .next t) :
    runProgram (.event i :: p) s = prependResults [t.evOut] [] (runProgram p t) := by
  simp [runProgram, h]

/-- With an input waiting, a step takes it. -/
theorem step_cons {s : State} {i : Input} {rest : List Input} (h : s.inputs = i :: rest) :
    step s = takeInput i { s with inputs := rest } := by
  simp [step, h]

/-- With no input waiting and none to come, a step takes no event. -/
theorem step_silent {s : State} (h : s.inputs = []) (ho : s.onward = none) : step s = .next s.idle := by
  simp [step, stepOnward, h, ho]

/-- With no input waiting in the list, a step takes the next of an endless sequence. -/
theorem step_endless {s : State} {k : Nat} (h : s.inputs = []) (ho : s.onward = some k) :
    step s = takeInput (Config.endlessInput k) (s.withOnward (some (k + 1))) := by
  simp [step, stepOnward, h, ho]

/-- A run of the machine goes on from the state its first step leaves. -/
theorem core_run_succ_next {s t : State} (n : Nat) (h : step s = .next t) :
    Sys2Proof.core.run (n + 1) s = Sys2Proof.core.run n t := by
  have h' : Sys2Proof.core.step s = .next t := h
  simp only [Host.Core.run, h']

/-- A run of the machine ends in the fault of its first step. -/
theorem core_run_succ_fault {s : State} {f : Fault} (n : Nat) (h : step s = .fault f) :
    Sys2Proof.core.run (n + 1) s = .fault f := by
  have h' : Sys2Proof.core.step s = .fault f := h
  simp only [Host.Core.run, h']

/-- The first `n` inputs of an infinite sequence are a finite sequence. -/
theorem takeStream_eq_takeInputs (ins : Nat → Input) (n : Nat) (s : State) :
    takeStream ins n s = takeInputs ((List.range n).map ins) s := by
  induction n generalizing ins s with
  | zero => rfl
  | succ n ih =>
    rw [List.range_succ_eq_map, List.map_cons, List.map_map]
    cases h : takeInput (ins 0) s with
    | next t => rw [takeInputs_cons_next h, takeStream, h]; exact ih _ t
    | fault f => simp [takeStream, takeInputs, h]
    | refused r => simp [takeStream, takeInputs, h]

end Sys2Proof.Machine
end

