-- ==== Sys2Proof/Laws/Inputs.lean ====
section
/-! SUPPORT. What each meaning and each input can do, said once: the cases of the two rotation events, of a delivered
event, and of every input that answers a next state. -/

namespace Sys2Proof.Machine

open Sys2Proof

/-- EDGE_A when its confirming clause holds (R56). -/
theorem execEdgeA_of_confirms {level : Level} {s : State} (h : confirmsCcw s level = true) :
    execEdgeA level s = .next (s.confirm (decrement s.cnt) .ccw) := by
  simp [execEdgeA, h, edgeAArming_eq, State.confirm]

/-- EDGE_A when its confirming clause does not hold (R56). -/
theorem execEdgeA_of_not_confirms {level : Level} {s : State} (h : confirmsCcw s level = false) :
    execEdgeA level s = .next { s with cw := s.cw || armsCw s level, evOut := .none } := by
  simp [execEdgeA, h, edgeAArming_eq]

/-- EDGE_B when its confirming clause holds (R57). -/
theorem execEdgeB_of_confirms {level : Level} {s : State} (h : confirmsCw s level = true) :
    execEdgeB level s = .next (s.confirm (increment s.cnt) .cw) := by
  simp [execEdgeB, h, edgeBArming_eq, State.confirm]

/-- EDGE_B when its confirming clause does not hold (R57). -/
theorem execEdgeB_of_not_confirms {level : Level} {s : State} (h : confirmsCw s level = false) :
    execEdgeB level s = .next { s with ccw := s.ccw || armsCcw s level, evOut := .none } := by
  simp [execEdgeB, h, edgeBArming_eq]

/-- A delivered event that answers a next state is one execution after boot, seen by a read in progress. -/
theorem deliverEvent_cases {w : EventWord} {s t : State} (h : deliverEvent w s = .next t) :
    s.boot = .delivering ∧ ∃ u, exec (decodeWord w) s = .next u ∧ t = u.noteOverlap := by
  have hb : s.boot = .delivering := by
    unfold deliverEvent at h
    split at h
    · assumption
    all_goals cases h
  rw [deliverEvent_delivering hb] at h
  cases he : exec (decodeWord w) s with
  | next u =>
    rw [he, withOverlap_next] at h
    cases h
    exact ⟨hb, u, rfl, rfl⟩
  | fault f => rw [he] at h; cases h
  | refused r => rw [he] at h; cases h

/-- Everything an input that answers a next state can have done. -/
theorem takeInput_cases {inp : Input} {s t : State} (h : takeInput inp s = .next t) :
    (∃ w, inp.delivers = some w ∧ deliverEvent w s = .next t) ∨
    (inp.delivers = none ∧ inp.resets = true ∧ t = s.applyReset) ∨
    (inp.delivers = none ∧ inp.resets = false ∧ inp = .powerUp ∧ t = s.powerUp) ∨
    (inp.delivers = none ∧ inp.resets = false ∧ inp = .consumer ∧ t = s.consumerAction) ∨
    (inp.delivers = none ∧ inp.resets = false ∧ (∃ p, inp = .clock p) ∧ t = s.idle) ∨
    (inp.delivers = none ∧ inp.resets = false ∧ (∃ ok, inp = .startConsumer ok ∧ t = s.beginConsumer ok) ∧
      (s.consumer = .notStarted ∨ s.consumer = .displayFailed)) ∨
    (inp.delivers = none ∧ inp.resets = false ∧ (inp = .configureLines ∨ inp = .registerDelivery) ∧
      t = { s with boot := t.boot }) := by
  cases inp with
  | event w => exact .inl ⟨w, rfl, h⟩
  | report pin snapshot => exact .inl ⟨_, rfl, h⟩
  | clock p =>
    rcases p with ⟨rst, valid, w⟩
    cases rst <;> cases valid <;> simp_all [takeInput, clockEdge, Input.delivers, Input.resets]
  | reset => simp_all [takeInput, Input.delivers, Input.resets]
  | consumer => simp_all [takeInput, Input.delivers, Input.resets]
  | powerUp => simp_all [takeInput, Input.delivers, Input.resets]
  | configureLines =>
    simp only [takeInput, configureLines] at h
    split at h <;> cases h
    simp [Input.delivers, Input.resets]
  | registerDelivery =>
    simp only [takeInput, registerDelivery] at h
    split at h <;> cases h
    simp [Input.delivers, Input.resets]
  | startConsumer ok =>
    simp only [takeInput, startConsumer] at h
    split at h <;> cases h <;> simp_all [Input.delivers, Input.resets]

/-- What follows the listed inputs changes nothing of what a read in progress sees. -/
theorem noteOverlap_withOnward (o : Option Nat) (s : State) :
    (s.withOnward o).noteOverlap = s.noteOverlap.withOnward o := by
  rcases s with ⟨cnt, cw, ccw, out, boot, consumer, last, calls, ins, on, reads, ups⟩
  cases consumer <;> rfl

/-- What follows the listed inputs changes nothing of what an event does, and no event changes it. -/
theorem exec_withOnward (i : Instr) (o : Option Nat) (s : State) :
    exec i (s.withOnward o) = mapNext (State.withOnward o) (exec i s) := by
  cases i with
  | edgeA l =>
    cases h : confirmsCcw s l
    · simp only [exec, execEdgeA_of_not_confirms h, mapNext_next]; exact execEdgeA_of_not_confirms h
    · simp only [exec, execEdgeA_of_confirms h, mapNext_next]; exact execEdgeA_of_confirms h
  | edgeB l =>
    cases h : confirmsCw s l
    · simp only [exec, execEdgeB_of_not_confirms h, mapNext_next]; exact execEdgeB_of_not_confirms h
    · simp only [exec, execEdgeB_of_confirms h, mapNext_next]; exact execEdgeB_of_confirms h
  | edgeBtn l => rfl
  | edgeOther l => rfl

/-- The same for a delivered event. -/
theorem deliverEvent_withOnward (w : EventWord) (o : Option Nat) (s : State) :
    deliverEvent w (s.withOnward o) = mapNext (State.withOnward o) (deliverEvent w s) := by
  unfold deliverEvent
  rw [State.withOnward_boot]
  split
  · simp only [withOverlap, exec_withOnward, mapNext_mapNext, noteOverlap_withOnward]
  all_goals rfl

/-- What follows the listed inputs changes nothing of what an input does, and no input changes it. -/
theorem takeInput_withOnward (inp : Input) (o : Option Nat) (s : State) :
    takeInput inp (s.withOnward o) = mapNext (State.withOnward o) (takeInput inp s) := by
  have reset : (s.withOnward o).applyReset = s.applyReset.withOnward o := noteOverlap_withOnward o s.resetBlock
  cases inp with
  | event w => exact deliverEvent_withOnward w o s
  | report pin snapshot => exact deliverEvent_withOnward _ o s
  | clock p =>
    rcases p with ⟨rst, valid, w⟩
    cases rst <;> cases valid <;> simp [takeInput, clockEdge, reset, deliverEvent_withOnward, State.idle]
    rfl
  | reset => simp [takeInput, reset]
  | powerUp => rfl
  | consumer =>
    rcases s with ⟨cnt, cw, ccw, out, boot, consumer, last, calls, ins, on, reads, ups⟩
    cases consumer <;> rfl
  | configureLines =>
    rcases s with ⟨cnt, cw, ccw, out, boot, consumer, last, calls, ins, on, reads, ups⟩
    cases boot <;> rfl
  | registerDelivery =>
    rcases s with ⟨cnt, cw, ccw, out, boot, consumer, last, calls, ins, on, reads, ups⟩
    cases boot <;> rfl
  | startConsumer ok =>
    rcases s with ⟨cnt, cw, ccw, out, boot, consumer, last, calls, ins, on, reads, ups⟩
    cases consumer <;> rfl

end Sys2Proof.Machine
end

