-- ==== Sys2Proof/Tests/Slice0.lean ====
section
/-! SUPPORT. The model's own tests: the well-formedness smoke test, words written out from the spec's encodings, single
steps against the vectors of 95_test_vectors.md, and a witness for the hypotheses of each statement. -/

namespace Sys2Proof.Tests

open Sys2Proof Sys2Proof.Machine

/-! ### Helpers -/

/-- A booted state with the block at `(cnt, cw, ccw)`. -/
def blk (cnt : Count) (cw ccw : Bool) : State := { State.reset with cnt := cnt, cw := cw, ccw := ccw }

/-- The block and its output after a step that answers a next state. -/
def view (o : Host.Outcome State Fault Refusal) : Option (Count × Bool × Bool × Out) :=
  match o with
  | .next s => some (s.cnt, s.cw, s.ccw, s.evOut)
  | .fault _ => none
  | .refused _ => none

/-- The step from reset with the word `w` placed next. -/
def firstStep (w : Nat) : Option (Count × Bool × Bool × Out) := view (step (State.reset.withFetchWord 8 w))

/-! ### Well-formedness (R42: there is no other length) -/

theorem test_wordFits_refuses_five_bits : wordFits 0b10000 = false := by decide
theorem test_decodeNat_rejects_by_name : decodeNat 0b10000 = .error (.notFourBits 16) := by decide
theorem test_wordFits_last_word : wordFits 0b1111 = true := by decide

/-! ### Words from the layout of R42, R43, R52 -/

theorem test_decode_edgeA : decodeTableWord 8 0b0010 = some (.edgeA 0b10#2) := by decide
theorem test_decode_edgeB : decodeTableWord 8 0b0101 = some (.edgeB 0b01#2) := by decide
theorem test_decode_edgeBtn : decodeTableWord 8 0b1011 = some (.edgeBtn 0b11#2) := by decide
theorem test_decode_edgeOther : decodeTableWord 8 0b1100 = some (.edgeOther 0b00#2) := by decide

/-- Each row of spec/opcode_table.json (mask 0b1100 and its match) is hit by exactly the words of its operation. -/
theorem test_opcode_rows : ∀ w : EventWord,
    ((w &&& 0b1100#4 = 0b0000#4) ↔ (decodeWord w).line = .a) ∧ ((w &&& 0b1100#4 = 0b0100#4) ↔ (decodeWord w).line = .b) ∧
    ((w &&& 0b1100#4 = 0b1000#4) ↔ (decodeWord w).line = .btn) ∧
    ((w &&& 0b1100#4 = 0b1100#4) ↔ (decodeWord w).line = .other) := by decide

/-! ### One step each: 95_test_vectors.md part L2 -/

/-- V-L2-1.5. -/
theorem test_edgeA_confirm_wraps : view (exec (.edgeA 0b00#2) (blk 0 false true)) = some (255, false, false, .ccw) := by
  decide
/-- V-L2-2.5. -/
theorem test_edgeB_confirm_wraps : view (exec (.edgeB 0b00#2) (blk 255 true false)) = some (0, false, false, .cw) := by
  decide
/-- V-L2-2.3. -/
theorem test_edgeB_cannot_confirm_ccw : view (exec (.edgeB 0b00#2) (blk 5 false true)) = some (5, false, true, .none) := by
  decide
/-- V-L2-3.5. -/
theorem test_edgeBtn_keeps_flags : view (exec (.edgeBtn 0b11#2) (blk 200 true true)) = some (0, true, true, .reset) := by
  decide
/-- V-L2-4.3. -/
theorem test_edgeOther_no_op : view (exec (.edgeOther 0b10#2) (blk 255 true true)) = some (255, true, true, .none) := by
  decide

/-- V-L2-1.1, run as the first event after reset. -/
theorem test_first_step_arms : firstStep 0x2 = some (0, true, false, .none) := by decide
/-- V-L2-3.2, run as the first event after reset. -/
theorem test_first_step_button : firstStep 0x8 = some (0, false, false, .reset) := by decide
/-- V-L2-9. -/
theorem test_reset_clears : view (takeInput .reset (blk 200 true true)) = some (0, false, false, .none) := by decide
/-- V-L2-10, edge 4. -/
theorem test_clock_takes_event :
    view (takeInput (.clock ⟨false, true, 0x4#4⟩) (blk 0 true false)) = some (1, false, false, .cw) := by decide
/-- V-L2-10, edge 5. -/
theorem test_clock_without_event :
    view (takeInput (.clock ⟨false, false, 0x4#4⟩) { blk 1 false false with evOut := .cw }) =
      some (1, false, false, .none) := by decide
/-- V-L2-8, formatting. -/
theorem test_decimal_no_leading_zeros : decimal 7 = ['7'] ∧ decimal 100 = ['1', '0', '0'] := by decide

/-! ### Witnesses: a concrete state and operands meeting the hypotheses of each statement -/

theorem witness_EncodeDecodeInverse : 16 ≤ 16 := by decide
theorem witness_RotationTableAgrees : ∃ row ∈ rotationTable, (blk 0 false true).cw = row.cw ∧ (blk 0 false true).ccw = row.ccw :=
  ⟨⟨false, true, 0x0#4, false, false, -1, .ccw⟩, by decide, rfl, rfl⟩
theorem witness_RotationTable_last_word : (0x7#4).toNat < 8 := by decide

theorem witness_flags_cw_set : ∃ t, takeInput (.event 0x2#4) (blk 0 false false) = .next t ∧ t.cw = true := ⟨_, rfl, rfl⟩
theorem witness_flags_cw_clear : ∃ t, takeInput (.event 0x4#4) (blk 0 true false) = .next t ∧ t.cw = false := ⟨_, rfl, rfl⟩
theorem witness_flags_ccw_set : ∃ t, takeInput (.event 0x5#4) (blk 0 false false) = .next t ∧ t.ccw = true := ⟨_, rfl, rfl⟩
theorem witness_flags_ccw_clear : ∃ t, takeInput (.event 0x0#4) (blk 0 false true) = .next t ∧ t.ccw = false := ⟨_, rfl, rfl⟩
theorem witness_OnlyThreeWritesOfTheCounter :
    ∃ t, takeInput (.event 0x8#4) (blk 9 false false) = .next t ∧ Input.event 0x8#4 ≠ .powerUp := ⟨_, rfl, by decide⟩
theorem witness_agents_consumer : ∃ t, takeInput .consumer State.reset = .next t ∧ Input.consumer.ofConsumer = true :=
  ⟨_, rfl, rfl⟩
theorem witness_agents_event : ∃ t, takeInput (.event 0x2#4) State.reset = .next t ∧
    (Input.event 0x2#4).operating = true ∧ (Input.event 0x2#4).ofConsumer = false := ⟨_, rfl, rfl, rfl⟩

/-- The hypotheses `boot = delivering`, `control = idle` and `consumer = poll` of the statements about event sequences,
clock edges, reads and the consumer's iterations hold at reset. -/
theorem witness_booted_idle_polling :
    State.reset.boot = .delivering ∧ State.reset.control = .idle ∧ State.reset.consumer = .poll := ⟨rfl, rfl, rfl⟩
theorem witness_DetentsAreCountedExactly : State.reset.boot = .delivering ∧ [true, false] ≠ [] := by decide
theorem witness_CounterFollowsClassifications :
    State.reset.boot = .delivering ∧ ∀ i ∈ [Instr.edgeA 0b10#2, .edgeB 0b00#2, .edgeOther 0b11#2], i.line ≠ .btn := by decide
theorem witness_bounce_cw : (blk 0 true false).boot = .delivering ∧ (blk 0 true false).cw = true := ⟨rfl, rfl⟩
theorem witness_bounce_ccw : (blk 0 false true).boot = .delivering ∧ (blk 0 false true).ccw = true := ⟨rfl, rfl⟩
theorem witness_ArmedFlagHasNoTimeout : ∃ t, runProgram (eventItems [.edgeBtn 0b00#2]) (blk 9 true true) =
    .next ⟨t, [.reset], []⟩ ∧ (∀ o ∈ [Out.reset], o ≠ .cw ∧ o ≠ .ccw) := ⟨_, rfl, by decide⟩
theorem witness_BouncingButtonActsOnce : State.reset.boot = .delivering ∧ [(0b00#2 : Level)] ≠ [] := by decide

theorem witness_reset_directive : Input.reset.resets = true ∧ ∀ f l, State.reset.consumer ≠ .reading f l :=
  ⟨rfl, by intro f l h; cases h⟩
theorem witness_reset_port : (Input.clock ⟨true, true, 0x2#4⟩).resets = true := rfl
theorem witness_BootReachesReset :
    [Input.configureLines] ++ [Input.reset, .registerDelivery] = [.configureLines, .reset, .registerDelivery] := rfl
theorem witness_BootOutOfOrderStops : State.reset.boot ≠ .unconfigured ∧ State.reset.boot ≠ .initialised := by decide
theorem witness_EventBeforeBootIsStuck :
    (Input.event 0x2#4).delivers = some 0x2#4 ∧ State.reset.powerUp.boot ≠ .delivering := by decide
theorem witness_NothingEverStopsTheBootedMachine : State.reset.boot = .delivering ∧
    ∀ i ∈ [Input.event 0x2#4, .clock ⟨true, false, 0x0#4⟩, .consumer], i.operating = true := by decide
theorem witness_step_event : ∃ s : State, s.inputs = .event 0x2#4 :: [.consumer] ∧ s.boot = .delivering :=
  ⟨{ State.reset with inputs := [.event 0x2#4, .consumer] }, rfl, rfl⟩
theorem witness_step_encoded : ∃ s : State, s.inputs = .event (encode (.edgeB 0b01#2)) :: s.inputs.tail ∧
    s.boot = .delivering ∧ ∀ f l, s.consumer ≠ .reading f l :=
  ⟨{ State.reset with inputs := [.event 0x5#4] }, by decide, rfl, by intro f l h; cases h⟩
theorem witness_PowerUpForgetsEverything : (blk 0 false false).inputs = (blk 9 true true).inputs ∧
    (blk 0 false false).onward = (blk 9 true true).onward ∧ (blk 0 false false).reads = (blk 9 true true).reads ∧
    (blk 0 false false).powerUps = (blk 9 true true).powerUps := ⟨rfl, rfl, rfl, rfl⟩
theorem witness_clock_reset : (⟨true, true, 0x2#4⟩ : Ports).rst = true := rfl
theorem witness_clock_event : (⟨false, true, 0x2#4⟩ : Ports).rst = false ∧ (⟨false, true, 0x2#4⟩ : Ports).evValid = true :=
  ⟨rfl, rfl⟩
theorem witness_clock_idle : (⟨false, false, 0x2#4⟩ : Ports).rst = false ∧ (⟨false, false, 0x2#4⟩ : Ports).evValid = false :=
  ⟨rfl, rfl⟩
theorem witness_FailedDisplayRendersNothing : ∃ s : State, s.consumer = .notStarted ∧ s.boot = .delivering :=
  ⟨{ State.reset with consumer := .notStarted }, rfl, rfl⟩
theorem witness_failed_display_retry : ∃ s : State, s.consumer = .displayFailed ∧ s.boot = .delivering :=
  ⟨{ State.reset with consumer := .displayFailed }, rfl, rfl⟩
theorem witness_ConsumerErasure : ∃ t, takeInputs [.consumer, .event 0x2#4, .consumer] State.reset = .next t := ⟨_, rfl⟩
theorem witness_reports_other_pin : ∃ pin : Nat, pin < Config.gpioBase ∨ Config.gpioBase + 2 < pin :=
  ⟨Config.gpioBase + 3, .inr (by omega)⟩
theorem witness_reports_same_levels : 0b001 % 4 = 0b101 % 4 := by decide
theorem witness_grey_clockwise : FrontEndDeliversAllEdges
    ([0b11#2, 0b10#2, 0b00#2, 0b01#2, 0b11#2].map fun l => BitVec.ofBool true ++ l) [0x2#4, 0x4#4] :=
  ⟨[0x2#4], [0x4#4], rfl, .refl _, [0x4#4], [], rfl, .refl _, [], [], rfl, .refl _, [], [], rfl, .refl _, rfl⟩
theorem witness_grey_counterclockwise : FrontEndDeliversAllEdges
    ([0b11#2, 0b01#2, 0b00#2, 0b10#2, 0b11#2].map fun l => BitVec.ofBool true ++ l) [0x5#4, 0x0#4] :=
  ⟨[0x5#4], [0x0#4], rfl, .refl _, [0x0#4], [], rfl, .refl _, [], [], rfl, .refl _, [], [], rfl, .refl _, rfl⟩
theorem witness_grey_together : FrontEndDeliversAllEdges
    ([0b11#2, 0b00#2].map fun l => BitVec.ofBool true ++ l) [0x4#4, 0x0#4] ∧ State.reset.control = .idle :=
  ⟨⟨[0x4#4, 0x0#4], [], rfl, .swap _ _ _, rfl⟩, rfl⟩

theorem witness_EndlessInputIsTakenStepByStep :
    (State.reset.withOnward (some 0)).inputs = [] ∧ (State.reset.withOnward (some 0)).onward = some 0 := ⟨rfl, rfl⟩
theorem witness_endless_operating : State.reset.boot = .delivering ∧
    ∀ k : Nat, ((fun _ => Input.event 0x2#4 : Nat → Input) k).operating = true := ⟨rfl, fun _ => rfl⟩
theorem witness_input_ended : State.reset.inputs = [] ∧ State.reset.onward = none := ⟨rfl, rfl⟩
theorem witness_EndlessTurnsAreCounted : FrontEndDeliversEveryEdge (fun k => BitVec.ofBool true ++ greyCode k)
    (fun k => edgeEvents (BitVec.ofBool true ++ greyCode k) (BitVec.ofBool true ++ greyCode (k + 1))) := fun _ => .refl _

/-- A state of the invariant in the middle of its first render, from which a step answers a next state. -/
theorem witness_StepKeepsInvariant : ∃ s t : State, s.Inv ∧ step s = .next t ∧ t.consumer = .flush 0 :=
  ⟨{ State.reset with consumer := .draw 0, displayCalls := [.bringUp, .clear], inputs := [.consumer] }, _,
    { window := by intro f l h; cases h
      calls := ⟨1, [], rfl, by simp, rfl, by decide⟩ }, rfl, rfl⟩

end Sys2Proof.Tests
end

/-! PROOFS. The step function of R11 on the block's own three fields, and its agreement with `exec`. -/

namespace Sys2Proof.Machine

open Sys2Proof

/-- `Step((cnt, cw, ccw), ev) -> ((cnt', cw', ccw'), out)` of R11, case by case as in R56, R57, R64 and R65: what an
event does to the block, told without the rest of the machine. -/
def blockStep : Instr → Count × Bool × Bool → (Count × Bool × Bool) × Out
  | .edgeA l, (cnt, cw, ccw) =>
    if ccw = true ∧ l = returnToZero then ((decrement cnt, false, false), .ccw)
    else ((cnt, cw || l == cwIntermediate, ccw), .none)
  | .edgeB l, (cnt, cw, ccw) =>
    if cw = true ∧ l = returnToZero then ((increment cnt, false, false), .cw)
    else ((cnt, cw, ccw || l == ccwIntermediate), .none)
  | .edgeBtn _, (_, cw, ccw) => ((0, cw, ccw), .reset)
  | .edgeOther _, block => (block, .none)

/-- The result of a block step is written into the machine: the three fields and the output, nothing else. -/
def State.writeBlock (r : (Count × Bool × Bool) × Out) (s : State) : State :=
  { s with cnt := r.1.1, cw := r.1.2.1, ccw := r.1.2.2, evOut := r.2 }

/-- Arming sets `cw` on the clockwise intermediate code, whether or not it was set before (R56). -/
theorem cw_or_armsCw (s : State) (l : Level) : (s.cw || armsCw s l) = (s.cw || l == cwIntermediate) := by
  cases h : s.cw <;> simp [armsCw, h]

/-- Arming sets `ccw` on the counter-clockwise intermediate code, whether or not it was set before (R57). -/
theorem ccw_or_armsCcw (s : State) (l : Level) : (s.ccw || armsCcw s l) = (s.ccw || l == ccwIntermediate) := by
  cases h : s.ccw <;> simp [armsCcw, h]

/-- EDGE_A is its block step. -/
theorem execEdgeA_eq_writeBlock (l : Level) (s : State) :
    execEdgeA l s = .next (s.writeBlock (blockStep (.edgeA l) (s.cnt, s.cw, s.ccw))) := by
  cases h : confirmsCcw s l with
  | true =>
    rw [execEdgeA_of_confirms h, blockStep, if_pos ((confirmsCcw_iff s l).mp h)]
    rfl
  | false =>
    have hnot : ¬(s.ccw = true ∧ l = returnToZero) := by simp [← confirmsCcw_iff, h]
    rw [execEdgeA_of_not_confirms h, blockStep, if_neg hnot, cw_or_armsCw]
    rfl

/-- EDGE_B is its block step. -/
theorem execEdgeB_eq_writeBlock (l : Level) (s : State) :
    execEdgeB l s = .next (s.writeBlock (blockStep (.edgeB l) (s.cnt, s.cw, s.ccw))) := by
  cases h : confirmsCw s l with
  | true =>
    rw [execEdgeB_of_confirms h, blockStep, if_pos ((confirmsCw_iff s l).mp h)]
    rfl
  | false =>
    have hnot : ¬(s.cw = true ∧ l = returnToZero) := by simp [← confirmsCw_iff, h]
    rw [execEdgeB_of_not_confirms h, blockStep, if_neg hnot, ccw_or_armsCcw]
    rfl

/-- Every event completes from every state, and is its block step on `(cnt, cw, ccw)` with the rest of the machine
unchanged (R11). -/
theorem exec_eq_writeBlock (i : Instr) (s : State) :
    exec i s = .next (s.writeBlock (blockStep i (s.cnt, s.cw, s.ccw))) := by
  cases i with
  | edgeA l => exact execEdgeA_eq_writeBlock l s
  | edgeB l => exact execEdgeB_eq_writeBlock l s
  | edgeBtn l => rfl
  | edgeOther l => rfl

/-- Settles O9: the step function is `blockStep` of the decoded word. -/
theorem execIsTheStepFunction : Obligations.ExecIsTheStepFunction :=
  ⟨fun block w => blockStep (decodeWord w) block, fun s w => exec_eq_writeBlock (decodeWord w) s⟩

end Sys2Proof.Machine

/-! PROOFS. Who writes the counter and the phase flags (R18 to R20), what an event's effect does not depend on (R27), and
what is hidden from the consumer (R23, R69) or lost with power (R29). -/

namespace Sys2Proof.Machine

open Sys2Proof

/-- The block's three fields, as the step function of R11 takes them. -/
def State.block (s : State) : Count × Bool × Bool := (s.cnt, s.cw, s.ccw)

/-- The block holds given values exactly when its three fields do. -/
theorem block_eq_iff (s : State) (cnt : Count) (cw ccw : Bool) :
    s.block = (cnt, cw, ccw) ↔ s.cnt = cnt ∧ s.cw = cw ∧ s.ccw = ccw := by
  simp [State.block]

/-- The writes of an event to the block, one case a clause: the two confirmations, the two armings (R56, R57), the
clear (R64), or none. -/
theorem blockStep_cases (i : Instr) (cnt : Count) (cw ccw : Bool) :
    (i = .edgeB returnToZero ∧ cw = true ∧ (blockStep i (cnt, cw, ccw)).1 = (increment cnt, false, false)) ∨
    (i = .edgeA returnToZero ∧ ccw = true ∧ (blockStep i (cnt, cw, ccw)).1 = (decrement cnt, false, false)) ∨
    (i = .edgeA cwIntermediate ∧ (blockStep i (cnt, cw, ccw)).1 = (cnt, true, ccw)) ∨
    (i = .edgeB ccwIntermediate ∧ (blockStep i (cnt, cw, ccw)).1 = (cnt, cw, true)) ∨
    ((∃ l, i = .edgeBtn l) ∧ (blockStep i (cnt, cw, ccw)).1 = (0, cw, ccw)) ∨
    (blockStep i (cnt, cw, ccw)).1 = (cnt, cw, ccw) := by
  cases i with
  | edgeA l =>
    by_cases hconfirm : ccw = true ∧ l = returnToZero
    · simp [blockStep, hconfirm]
    · by_cases harm : l = cwIntermediate
      · simp [blockStep, harm, cwIntermediate, returnToZero]
      · simp [blockStep, hconfirm, harm]
  | edgeB l =>
    by_cases hconfirm : cw = true ∧ l = returnToZero
    · simp [blockStep, hconfirm]
    · by_cases harm : l = ccwIntermediate
      · simp [blockStep, harm, ccwIntermediate, returnToZero]
      · simp [blockStep, hconfirm, harm]
  | edgeBtn l => simp [blockStep]
  | edgeOther l => simp [blockStep]

/-- A delivered event does its block step, whatever a read in progress sees of it. -/
theorem deliverEvent_block {w : EventWord} {s t : State} (h : deliverEvent w s = .next t) :
    t.block = (blockStep (decodeWord w) s.block).1 := by
  obtain ⟨-, u, hu, rfl⟩ := deliverEvent_cases h
  rw [exec_eq_writeBlock] at hu
  cases hu
  simp [State.block, State.writeBlock]

/-- Without a loss of power, the block is written by a delivered event or by a reset, and by nothing else. -/
theorem takeInput_block_cases {inp : Input} {s t : State} (hp : inp ≠ .powerUp) (h : takeInput inp s = .next t) :
    (∃ w, inp.delivers = some w ∧ t.block = (blockStep (decodeWord w) s.block).1) ∨
    (inp.resets = true ∧ t.block = (0, false, false)) ∨
    t.block = s.block := by
  obtain ⟨w, hw, hd⟩ | ⟨-, hr, rfl⟩ | ⟨-, -, hup, -⟩ | ⟨-, -, -, rfl⟩ | ⟨-, -, -, rfl⟩ |
    ⟨-, -, ⟨ok, -, rfl⟩, -⟩ | ⟨-, -, -, ht⟩ := takeInput_cases h
  · exact .inl ⟨w, hw, deliverEvent_block hd⟩
  · exact .inr (.inl ⟨hr, by simp [State.block]⟩)
  · exact absurd hup hp
  · exact .inr (.inr (by simp [State.block]))
  · exact .inr (.inr rfl)
  · exact .inr (.inr rfl)
  · exact .inr (.inr (by rw [ht]; rfl))

/-- Settles O13: of the writes of the block, only the armings set a flag, and only the confirmations and the reset clear
one. -/
theorem onlyArmingSetsAndConfirmingClearsFlags : Obligations.OnlyArmingSetsAndConfirmingClearsFlags := by
  intro inp s t hp h
  obtain ⟨w, hw, ht⟩ | ⟨hr, ht⟩ | ht := takeInput_block_cases hp h
  · simp only [hw, Option.some.injEq, exists_eq_left']
    obtain ⟨hi, hcw, hb⟩ | ⟨hi, hccw, hb⟩ | ⟨hi, hb⟩ | ⟨hi, hb⟩ | ⟨-, hb⟩ | hb :=
      blockStep_cases (decodeWord w) s.cnt s.cw s.ccw <;>
      obtain ⟨-, htcw, htccw⟩ := (block_eq_iff ..).mp (ht.trans hb)
    · simp [htcw, htccw, hi, hcw, returnToZero]
    · simp [htcw, htccw, hi, hccw, returnToZero]
    · simp +contextual [htcw, htccw, hi, cwIntermediate]
    · simp +contextual [htcw, htccw, hi, ccwIntermediate]
    · simp +contextual [htcw, htccw]
    · simp +contextual [htcw, htccw]
  · obtain ⟨-, htcw, htccw⟩ := (block_eq_iff ..).mp ht
    simp [htcw, htccw, hr]
  · obtain ⟨-, htcw, htccw⟩ := (block_eq_iff ..).mp ht
    simp +contextual [htcw, htccw]

/-- Settles O14: of the writes of the block, only the confirmations, the clear and the reset write the counter. -/
theorem onlyThreeWritesOfTheCounter : Obligations.OnlyThreeWritesOfTheCounter := by
  intro inp s t hp h
  obtain ⟨w, hw, ht⟩ | ⟨hr, ht⟩ | ht := takeInput_block_cases hp h
  · obtain ⟨hi, hcw, hb⟩ | ⟨hi, hccw, hb⟩ | ⟨-, hb⟩ | ⟨-, hb⟩ | ⟨hi, hb⟩ | hb :=
      blockStep_cases (decodeWord w) s.cnt s.cw s.ccw <;>
      obtain ⟨htcnt, -, -⟩ := (block_eq_iff ..).mp (ht.trans hb)
    · exact .inr (.inr ⟨w, hw, .inl ⟨hi, hcw, htcnt⟩⟩)
    · exact .inr (.inr ⟨w, hw, .inr (.inl ⟨hi, hccw, htcnt⟩)⟩)
    · exact .inl htcnt
    · exact .inl htcnt
    · exact .inr (.inr ⟨w, hw, .inr (.inr ⟨hi, htcnt⟩)⟩)
    · exact .inl htcnt
  · exact .inr (.inl ⟨hr, ((block_eq_iff ..).mp ht).1⟩)
  · exact .inl ((block_eq_iff ..).mp ht).1

/-- The flags and the classification an event leaves do not depend on the counter (R27). -/
theorem blockStep_flags_out_of_any_count (i : Instr) (c d : Count) (flags : Bool × Bool) :
    (blockStep i (c, flags)).1.2 = (blockStep i (d, flags)).1.2 ∧
    (blockStep i (c, flags)).2 = (blockStep i (d, flags)).2 := by
  obtain ⟨cw, ccw⟩ := flags
  cases i with
  | edgeA l => by_cases h : ccw = true ∧ l = returnToZero <;> simp [blockStep, h]
  | edgeB l => by_cases h : cw = true ∧ l = returnToZero <;> simp [blockStep, h]
  | edgeBtn l => exact ⟨rfl, rfl⟩
  | edgeOther l => exact ⟨rfl, rfl⟩

/-- Settles O15: both executions are the block step, whose flags and classification are the same for every counter. -/
theorem wrapRecordsNothing : Obligations.WrapRecordsNothing := by
  intro i s c
  obtain ⟨hflags, hout⟩ := blockStep_flags_out_of_any_count i c s.cnt (s.cw, s.ccw)
  refine ⟨_, _, exec_eq_writeBlock i s, exec_eq_writeBlock i _, ?_⟩
  simp [State.writeBlock, hflags, hout]

/-- The phase flags and the classification are set to other values (the fields of R23 and R69). -/
def State.withHidden (cw ccw : Bool) (o : Out) (s : State) : State := { s with cw := cw, ccw := ccw, evOut := o }

/-- An action of the consumer reads none of the hidden fields and writes none of them. -/
theorem consumerAction_withHidden (cw ccw : Bool) (o : Out) (s : State) :
    (s.withHidden cw ccw o).consumerAction = s.consumerAction.withHidden cw ccw o := by
  rcases s with ⟨cnt, _, _, _, boot, consumer, last, calls, ins, on, reads, ups⟩
  cases consumer <;> rfl

/-- The same for any number of actions. -/
theorem consumerActions_withHidden (n : Nat) (cw ccw : Bool) (o : Out) (s : State) :
    consumerActions n (s.withHidden cw ccw o) = (consumerActions n s).withHidden cw ccw o := by
  induction n generalizing s with
  | zero => rfl
  | succ n ih => rw [consumerActions, consumerAction_withHidden, ih, consumerActions]

/-- Settles O18: the two runs differ in the hidden fields alone, and none of those is the consumer's. -/
theorem flagsHiddenFromConsumer : Obligations.FlagsHiddenFromConsumer := by
  intro n s cw ccw o
  have hrun : consumerActions n { s with cw := cw, ccw := ccw, evOut := o } =
      (consumerActions n s).withHidden cw ccw o := consumerActions_withHidden n cw ccw o s
  rw [hrun]
  exact ⟨rfl, rfl, rfl, rfl⟩

/-- What power-up leaves is made of the inputs to come and the model's two counters alone (R29). -/
theorem powerUp_congr {s t : State} (hins : s.inputs = t.inputs) (hon : s.onward = t.onward)
    (hreads : s.reads = t.reads) (hups : s.powerUps = t.powerUps) : s.powerUp = t.powerUp := by
  simp only [State.powerUp, hins, hon, hreads, hups]

/-- Settles O34: power-up answers a state made of what the two states agree in. -/
theorem powerUpForgetsEverything : Obligations.PowerUpForgetsEverything :=
  fun _ _ hins hon hreads hups => congrArg Host.Outcome.next (powerUp_congr hins hon hreads hups)

end Sys2Proof.Machine

/-! PROOFS. The read port and the consumer against the block (20_memory.md): reading has no side effect (R35), a read sees
whole steps (R34, R37), and the block does the same without the consumer (R35, R77, R91). -/

namespace Sys2Proof.Machine

open Sys2Proof

/-- What is left of a state when everything of the consumer's own (R86, the fields of `SameConsumer`) is put aside. -/
def State.withoutConsumer (s : State) : State :=
  { s with consumer := .notStarted, last := 0, displayCalls := [], reads := 0 }

/-- States that differ only in what is the consumer's own have the same block. -/
theorem sameBlock_of_withoutConsumer {s t : State} (h : s.withoutConsumer = t.withoutConsumer) : SameBlock s t := by
  simp only [State.withoutConsumer, State.mk.injEq] at h
  obtain ⟨hcnt, hcw, hccw, hout, hboot, -⟩ := h
  exact ⟨hcnt, hcw, hccw, hout, hboot⟩

/-- What a read in progress notes is the consumer's own. -/
@[simp] theorem noteOverlap_withoutConsumer (s : State) : s.noteOverlap.withoutConsumer = s.withoutConsumer := by
  unfold State.noteOverlap; split <;> rfl

/-- An action of the consumer writes only what is its own. -/
@[simp] theorem consumerAction_withoutConsumer (s : State) :
    s.consumerAction.withoutConsumer = s.withoutConsumer := by
  unfold State.consumerAction; split <;> rfl

/-- The same for any number of actions. -/
@[simp] theorem consumerActions_withoutConsumer (n : Nat) (s : State) :
    (consumerActions n s).withoutConsumer = s.withoutConsumer := by
  induction n generalizing s with
  | zero => rfl
  | succ n ih => rw [consumerActions, ih, consumerAction_withoutConsumer]

/-- Settles O17: the actions write only what is the consumer's own, and the read port shows the block's counter. -/
theorem readingHasNoSideEffect : Obligations.ReadingHasNoSideEffect := by
  intro n s
  have hblock : SameBlock (consumerActions n s) s := sameBlock_of_withoutConsumer (consumerActions_withoutConsumer n s)
  exact ⟨hblock, hblock.1, rfl⟩

/-! ### Reads among events -/

@[simp] theorem State.writeBlock_boot (r : (Count × Bool × Bool) × Out) (s : State) : (s.writeBlock r).boot = s.boot := rfl
@[simp] theorem State.writeBlock_consumer (r : (Count × Bool × Bool) × Out) (s : State) :
    (s.writeBlock r).consumer = s.consumer := rfl

/-- After boot, every delivered event completes as its block step, which a read in progress notes. -/
theorem deliverEvent_eq_writeBlock {s : State} (hboot : s.boot = .delivering) (w : EventWord) :
    deliverEvent w s = .next (s.writeBlock (blockStep (decodeWord w) s.block)).noteOverlap := by
  rw [deliverEvent_delivering hboot, exec_eq_writeBlock]
  rfl

/-- A read in progress notes the counter a step left. -/
theorem noteOverlap_of_reading {s : State} {first : Count} {later : List Count} (h : s.consumer = .reading first later) :
    s.noteOverlap.consumer = .reading first (later ++ [s.cnt]) := by
  simp [State.noteOverlap, h]

/-- A consumer about to read notes nothing. -/
theorem noteOverlap_of_poll {s : State} (h : s.consumer = .poll) : s.noteOverlap = s := by
  simp [State.noteOverlap, h]

/-- A read begins with the counter of its beginning. -/
theorem takeInput_consumer_of_poll {s : State} (h : s.consumer = .poll) :
    takeInput .consumer s = .next { s with consumer := .reading s.cnt [] } := by
  simp [takeInput, State.consumerAction, h, readCount]

/-- A read ends with one of the values it noted. -/
theorem takeInput_consumer_of_reading {s : State} {first : Count} {later : List Count}
    (h : s.consumer = .reading first later) :
    takeInput .consumer s = .next (s.compare (readResult s.reads first later)) := by
  simp [takeInput, State.consumerAction, h]

/-- After boot, an event completes and a read in progress notes the counter it leaves. -/
theorem deliverEvent_reading {s : State} {first : Count} {later : List Count} (hboot : s.boot = .delivering)
    (hread : s.consumer = .reading first later) (w : EventWord) :
    ∃ t, deliverEvent w s = .next t ∧ t.boot = .delivering ∧ t.consumer = .reading first (later ++ [t.cnt]) := by
  refine ⟨_, deliverEvent_eq_writeBlock hboot w, by simpa using hboot, ?_⟩
  rw [noteOverlap_of_reading (by simpa using hread), State.noteOverlap_cnt]

/-- While a read is in progress, a program of events, each followed by a `READ`, completes, and the values of its `READ`s
are those the read in progress notes. -/
theorem runProgram_events_reads_noted (is : List Instr) {s : State} {first : Count} {later : List Count}
    (hboot : s.boot = .delivering) (hread : s.consumer = .reading first later) :
    ∃ r, runProgram (is.flatMap fun i => [.event i, .read]) s = .next r ∧
      r.state.consumer = .reading first (later ++ r.reads) := by
  induction is generalizing s later with
  | nil => exact ⟨⟨s, [], []⟩, rfl, by simpa using hread⟩
  | cons i is ih =>
    obtain ⟨t, hstep, htboot, htread⟩ := deliverEvent_reading hboot hread (encode i)
    obtain ⟨r, hrun, hnoted⟩ := ih htboot htread
    refine ⟨⟨r.state, t.evOut :: r.outs, t.cnt :: r.reads⟩, ?_, by simpa using hnoted⟩
    rw [List.flatMap_cons, List.cons_append, List.cons_append, List.nil_append, runProgram_event i _ hstep, runProgram,
      hrun]
    rfl

/-- Settles O37: a read begun after the event sees that event's counter alone; an overlapped one notes the counter each
event left, and returns one of the values it noted. -/
theorem readsSeeWholeSteps : Obligations.ReadsSeeWholeSteps := by
  intro s hboot hpoll
  refine ⟨fun i => ?_, fun is => ?_⟩
  · have hstep := deliverEvent_eq_writeBlock hboot (encode i)
    rw [noteOverlap_of_poll (by simpa using hpoll)] at hstep
    exact ⟨_, _, hstep, takeInput_consumer_of_poll (by simpa using hpoll), takeInput_consumer_of_reading (later := []) rfl⟩
  · obtain ⟨r, hrun, hread⟩ := runProgram_events_reads_noted is
      (s := { s with consumer := .reading s.cnt [] }) hboot rfl
    exact ⟨_, r, _, takeInput_consumer_of_poll hpoll, hrun, readResult_mem _ _ _, takeInput_consumer_of_reading hread⟩

/-! ### Runs without the consumer -/

/-- An input of the consumer's writes only what is the consumer's own. -/
theorem takeInput_ofConsumer_withoutConsumer {inp : Input} {s t : State} (hc : inp.ofConsumer = true)
    (h : takeInput inp s = .next t) : t.withoutConsumer = s.withoutConsumer := by
  cases inp with
  | consumer =>
    cases h
    exact consumerAction_withoutConsumer s
  | startConsumer ok =>
    simp only [takeInput, startConsumer] at h
    split at h <;> cases h <;> rfl
  | _ => cases hc

/-- A changed outcome that is a next state was one before the change. -/
theorem mapNext_eq_next {g : State → State} {o : Host.Outcome State Fault Refusal} {t : State}
    (h : mapNext g o = .next t) : ∃ s, o = .next s ∧ g s = t := by
  cases o with
  | next s => exact ⟨s, rfl, by simpa using h⟩
  | fault f => cases h
  | refused r => cases h

/-- Before boot has finished, an event has no step (R95, U17). -/
theorem deliverEvent_of_not_delivering {s : State} (hboot : s.boot ≠ .delivering) (w : EventWord) :
    deliverEvent w s = .fault .eventBeforeBoot := by
  unfold deliverEvent
  split
  · contradiction
  all_goals rfl

/-- A delivered event does not depend on what is the consumer's own. -/
theorem deliverEvent_withoutConsumer (w : EventWord) (s : State) :
    deliverEvent w s.withoutConsumer = mapNext State.withoutConsumer (deliverEvent w s) := by
  by_cases hboot : s.boot = .delivering
  · rw [deliverEvent_eq_writeBlock hboot, deliverEvent_eq_writeBlock (s := s.withoutConsumer) hboot, mapNext_next,
      noteOverlap_withoutConsumer]
    rfl
  · rw [deliverEvent_of_not_delivering hboot, deliverEvent_of_not_delivering (s := s.withoutConsumer) hboot]
    rfl

/-- No other input depends on what is the consumer's own: without it, the input does the same to the rest. Power-up
writes `last`, so what is the consumer's own is put aside after the input as well. -/
theorem takeInput_withoutConsumer {inp : Input} (hc : inp.ofConsumer = false) (s : State) :
    mapNext State.withoutConsumer (takeInput inp s.withoutConsumer) =
      mapNext State.withoutConsumer (takeInput inp s) := by
  have event (w : EventWord) : mapNext State.withoutConsumer (deliverEvent w s.withoutConsumer) =
      mapNext State.withoutConsumer (deliverEvent w s) := by
    rw [deliverEvent_withoutConsumer, mapNext_mapNext]
    rfl
  have reset : s.withoutConsumer.applyReset.withoutConsumer = s.applyReset.withoutConsumer := by
    rw [State.applyReset, State.applyReset, noteOverlap_withoutConsumer, noteOverlap_withoutConsumer]
    rfl
  cases inp with
  | event w => exact event w
  | report pin snapshot => exact event _
  | clock p =>
    simp only [takeInput, clockEdge]
    split
    · exact congrArg Host.Outcome.next reset
    · split
      · exact event _
      · rfl
  | reset => exact congrArg Host.Outcome.next reset
  | powerUp => rfl
  | configureLines =>
    rcases s with ⟨cnt, cw, ccw, out, boot, consumer, last, calls, ins, on, reads, ups⟩
    cases boot <;> rfl
  | registerDelivery =>
    rcases s with ⟨cnt, cw, ccw, out, boot, consumer, last, calls, ins, on, reads, ups⟩
    cases boot <;> rfl
  | _ => cases hc

/-- From states that differ only in what is the consumer's own, such an input completes alike. -/
theorem takeInput_congr_withoutConsumer {inp : Input} (hc : inp.ofConsumer = false) {s u t : State}
    (hsu : s.withoutConsumer = u.withoutConsumer) (h : takeInput inp s = .next t) :
    ∃ v, takeInput inp u = .next v ∧ t.withoutConsumer = v.withoutConsumer := by
  have hrest : mapNext State.withoutConsumer (takeInput inp u) = .next t.withoutConsumer := by
    rw [← takeInput_withoutConsumer hc u, ← hsu, takeInput_withoutConsumer hc s, h, mapNext_next]
  obtain ⟨v, hv, hvt⟩ := mapNext_eq_next hrest
  exact ⟨v, hv, hvt.symm⟩

/-- A run that completes does the same to the rest of the machine without the consumer's inputs. -/
theorem takeInputs_erase_consumer {ins : List Input} {s u t : State} (hsu : s.withoutConsumer = u.withoutConsumer)
    (h : takeInputs ins s = .next t) :
    ∃ v, takeInputs (ins.filter fun i => !i.ofConsumer) u = .next v ∧ t.withoutConsumer = v.withoutConsumer := by
  induction ins generalizing s u with
  | nil =>
    cases h
    exact ⟨u, rfl, hsu⟩
  | cons inp ins ih =>
    obtain ⟨s', hs', hrest⟩ := takeInputs_cons_cases h
    cases hc : inp.ofConsumer with
    | true =>
      rw [List.filter_cons_of_neg (by simp [hc])]
      exact ih ((takeInput_ofConsumer_withoutConsumer hc hs').trans hsu) hrest
    | false =>
      obtain ⟨u', hu', hsu'⟩ := takeInput_congr_withoutConsumer hc hsu hs'
      rw [List.filter_cons_of_pos (by simp [hc]), takeInputs_cons_next hu']
      exact ih hsu' hrest

/-- Settles O42: both runs leave the same rest of the machine, the block with it. -/
theorem consumerErasure : Obligations.ConsumerErasure := by
  intro ins s t h
  obtain ⟨u, hu, htu⟩ := takeInputs_erase_consumer rfl h
  exact ⟨u, hu, sameBlock_of_withoutConsumer htu⟩

end Sys2Proof.Machine

/-! PROOFS. Levels that match no clause (30_encoding.md): R44's table and R50. -/

namespace Sys2Proof.Machine

open Sys2Proof

/-- Settles O3: bit 1 is the high half of the concatenation and bit 0 the low half. -/
theorem levelBitsAreBThenA : Obligations.LevelBitsAreBThenA :=
  ⟨by decide, ⟨rfl, rfl⟩, ⟨rfl, rfl⟩, ⟨rfl, rfl⟩, ⟨rfl, rfl⟩⟩

/-- EDGE_A with a level that is neither of its constants changes the classification alone (R50, R56). -/
theorem exec_edgeA_of_unmatched {l : Level} (hzero : l ≠ returnToZero) (hcw : l ≠ cwIntermediate) (s : State) :
    exec (.edgeA l) s = .next { s with evOut := .none } := by
  rw [exec_eq_writeBlock]
  simp [blockStep, hzero, hcw, State.writeBlock]

/-- EDGE_B with a level that is neither of its constants changes the classification alone (R50, R57). -/
theorem exec_edgeB_of_unmatched {l : Level} (hzero : l ≠ returnToZero) (hccw : l ≠ ccwIntermediate) (s : State) :
    exec (.edgeB l) s = .next { s with evOut := .none } := by
  rw [exec_eq_writeBlock]
  simp [blockStep, hzero, hccw, State.writeBlock]

/-- Settles O12: the listed levels are none of their operation's constants, and the other two operations have no
clause that names the level. -/
theorem unmatchedLevelsTriggerNothing : Obligations.UnmatchedLevelsTriggerNothing :=
  ⟨fun s => ⟨exec_edgeA_of_unmatched (by decide) (by decide) s, exec_edgeA_of_unmatched (by decide) (by decide) s,
      exec_edgeB_of_unmatched (by decide) (by decide) s, exec_edgeB_of_unmatched (by decide) (by decide) s⟩,
    fun _ _ _ => ⟨rfl, rfl⟩⟩

end Sys2Proof.Machine

/-! PROOFS. Turns of the encoder under a faithful front end (R46, R54, R85): the words a pin history delivers, and what
they do to the block. -/

namespace Sys2Proof.Machine

open Sys2Proof

/-! ### Runs of events on the block -/

/-- A sequence of event words on the block and its output: each word's block step in turn. -/
def blockRun (ws : List EventWord) (r : (Count × Bool × Bool) × Out) : (Count × Bool × Bool) × Out :=
  ws.foldl (fun r w => blockStep (decodeWord w) r.1) r

/-- Runs on the block compose. -/
theorem blockRun_append (xs ys : List EventWord) (r : (Count × Bool × Bool) × Out) :
    blockRun (xs ++ ys) r = blockRun ys (blockRun xs r) :=
  List.foldl_append

/-- After boot, any sequence of events completes, and leaves in the block and its output what its run on the block
leaves. -/
theorem takeInputs_events_blockRun (ws : List EventWord) {s : State} (hboot : s.boot = .delivering) :
    ∃ t, takeInputs (ws.map .event) s = .next t ∧ (t.block, t.evOut) = blockRun ws (s.block, s.evOut) := by
  induction ws generalizing s with
  | nil => exact ⟨s, rfl, rfl⟩
  | cons w ws ih =>
    have hstep : takeInput (.event w) s = .next (s.writeBlock (blockStep (decodeWord w) s.block)).noteOverlap :=
      deliverEvent_eq_writeBlock hboot w
    obtain ⟨t, hrun, ht⟩ := ih (s := (s.writeBlock (blockStep (decodeWord w) s.block)).noteOverlap) (by simpa using hboot)
    refine ⟨t, by rw [List.map_cons, takeInputs_cons_next hstep, hrun], ?_⟩
    rw [ht]
    simp [blockRun, State.block, State.writeBlock]

/-- IDLE is both flags clear (R21). -/
theorem control_eq_idle_iff (s : State) : s.control = .idle ↔ s.cw = false ∧ s.ccw = false := by
  cases hcw : s.cw <;> cases hccw : s.ccw <;> simp [State.control, hcw, hccw]

/-- After boot, events whose run on the block ends in IDLE complete with the counter and output of that run. -/
theorem takeInputs_events_of_blockRun_idle {ws : List EventWord} {s : State} {cnt : Count} {out : Out}
    (hboot : s.boot = .delivering) (h : blockRun ws (s.block, s.evOut) = ((cnt, false, false), out)) :
    ∃ t, takeInputs (ws.map .event) s = .next t ∧ t.cnt = cnt ∧ t.control = .idle ∧ t.evOut = out := by
  obtain ⟨t, hrun, ht⟩ := takeInputs_events_blockRun ws hboot
  obtain ⟨hblock, hout⟩ := Prod.mk.inj (ht.trans h)
  obtain ⟨hcnt, hflags⟩ := (block_eq_iff ..).mp hblock
  exact ⟨t, hrun, hcnt, (control_eq_idle_iff t).mpr hflags, hout⟩

/-- The words of `CWSTEP` (R54) count one up and end in IDLE, from any flags (R60). -/
theorem blockRun_cwStep (r : (Count × Bool × Bool) × Out) :
    blockRun [0x2#4, 0x4#4] r = ((increment r.1.1, false, false), .cw) := by
  obtain ⟨⟨cnt, cw, ccw⟩, out⟩ := r
  have harm : blockStep (decodeWord 0x2#4) (cnt, cw, ccw) = ((cnt, true, ccw), .none) := by
    cases cw <;> cases ccw <;> rfl
  have hconfirm : blockStep (decodeWord 0x4#4) (cnt, true, ccw) = ((increment cnt, false, false), .cw) := rfl
  rw [blockRun, List.foldl_cons, harm, List.foldl_cons, hconfirm, List.foldl_nil]

/-- The words of `CCWSTEP` (R54) count one down and end in IDLE, from any flags (R61). -/
theorem blockRun_ccwStep (r : (Count × Bool × Bool) × Out) :
    blockRun [0x5#4, 0x0#4] r = ((decrement r.1.1, false, false), .ccw) := by
  obtain ⟨⟨cnt, cw, ccw⟩, out⟩ := r
  have harm : blockStep (decodeWord 0x5#4) (cnt, cw, ccw) = ((cnt, cw, true), .none) := by
    cases cw <;> cases ccw <;> rfl
  have hconfirm : blockStep (decodeWord 0x0#4) (cnt, cw, true) = ((decrement cnt, false, false), .ccw) := rfl
  rw [blockRun, List.foldl_cons, harm, List.foldl_cons, hconfirm, List.foldl_nil]

/-- Any number of clockwise steps counts their number, from any flags, and at least one ends in IDLE. -/
theorem blockRun_cwSteps (n : Nat) (r : (Count × Bool × Bool) × Out) :
    (blockRun (List.replicate n [0x2#4, 0x4#4]).flatten r).1.1 = r.1.1 + BitVec.ofNat 8 n ∧
    (0 < n → (blockRun (List.replicate n [0x2#4, 0x4#4]).flatten r).1.2 = (false, false)) := by
  induction n with
  | zero => simp [blockRun]
  | succ n ih =>
    rw [List.replicate_succ', List.flatten_append, List.flatten_singleton, blockRun_append, blockRun_cwStep]
    refine ⟨?_, fun _ => rfl⟩
    rw [ih.1, increment, BitVec.ofNat_add, BitVec.add_assoc]
    rfl

/-! ### What a faithful front end delivers -/

/-- The words of a pin history, change by change, in the order `edgeEvents` lists them. -/
def historyEvents : List Pins → List EventWord
  | [] => []
  | [_] => []
  | p :: q :: rest => edgeEvents p q ++ historyEvents (q :: rest)

/-- A list of at most one element has one order only. -/
theorem eq_of_perm_of_length_le_one {α : Type} {xs ys : List α} (h : xs.Perm ys) (hlen : ys.length ≤ 1) : xs = ys := by
  match ys, hlen with
  | [], _ => exact h.eq_nil
  | [_], _ => exact List.perm_singleton.mp h

/-- Where no two lines fall together, a faithful front end has no choice of order. -/
theorem eq_historyEvents_of_delivers {pins : List Pins} {evs : List EventWord}
    (hone : pins.IsChain fun p q => (edgeEvents p q).length ≤ 1) (h : FrontEndDeliversAllEdges pins evs) :
    evs = historyEvents pins := by
  induction pins generalizing evs with
  | nil => exact h
  | cons p pins ih =>
    cases pins with
    | nil => exact h
    | cons q rest =>
      obtain ⟨hpq, hrest⟩ := List.isChain_cons_cons.mp hone
      obtain ⟨now, later, rfl, hnow, hlater⟩ := h
      rw [historyEvents, eq_of_perm_of_length_le_one hnow hpq, ih hrest hlater]

/-- One clockwise turn of the grey-code cycle delivers the words of `CWSTEP`. -/
theorem eq_cwStep_of_delivers {button : Bool} {evs : List EventWord}
    (h : FrontEndDeliversAllEdges ([0b11#2, 0b10#2, 0b00#2, 0b01#2, 0b11#2].map fun l => BitVec.ofBool button ++ l) evs) :
    evs = [0x2#4, 0x4#4] := by
  rw [eq_historyEvents_of_delivers (by cases button <;> decide) h]
  cases button <;> rfl

/-- One counter-clockwise turn delivers the words of `CCWSTEP`. -/
theorem eq_ccwStep_of_delivers {button : Bool} {evs : List EventWord}
    (h : FrontEndDeliversAllEdges ([0b11#2, 0b01#2, 0b00#2, 0b10#2, 0b11#2].map fun l => BitVec.ofBool button ++ l) evs) :
    evs = [0x5#4, 0x0#4] := by
  rw [eq_historyEvents_of_delivers (by cases button <;> decide) h]
  cases button <;> rfl

/-- Both rotation lines falling together deliver one word a line, in either order, each with both levels low. -/
theorem eq_or_eq_of_delivers_together {button : Bool} {evs : List EventWord}
    (h : FrontEndDeliversAllEdges ([0b11#2, 0b00#2].map fun l => BitVec.ofBool button ++ l) evs) :
    evs = [0x0#4, 0x4#4] ∨ evs = [0x4#4, 0x0#4] := by
  obtain ⟨now, later, rfl, hnow, rfl⟩ := h
  have hwords : edgeEvents (BitVec.ofBool button ++ 0b11#2) (BitVec.ofBool button ++ 0b00#2) = [0x0#4, 0x4#4] := by
    cases button <;> rfl
  rw [List.append_nil]
  exact List.perm_pair.mp (hwords ▸ hnow)

/-- Settles O44: the premise leaves one word sequence for each direction, which counts one; for lines that fall
together it leaves two, and from IDLE neither word of them has a clause. -/
theorem greyCodeTurnCountsOne : Obligations.GreyCodeTurnCountsOne := by
  intro button s evs hboot
  refine ⟨fun h => ?_, fun h => ?_, fun h hidle => ?_⟩
  · obtain rfl := eq_cwStep_of_delivers h
    exact ⟨rfl, takeInputs_events_of_blockRun_idle hboot (blockRun_cwStep _)⟩
  · obtain rfl := eq_ccwStep_of_delivers h
    obtain ⟨t, hrun, hcnt, ht⟩ := takeInputs_events_of_blockRun_idle hboot (blockRun_ccwStep _)
    have hback : decrement s.cnt + 1 = s.cnt := by simp [decrement, BitVec.add_assoc]
    exact ⟨rfl, t, hrun, by rw [hcnt]; exact hback, ht⟩
  · have hblock : s.block = (s.cnt, false, false) :=
      (block_eq_iff ..).mpr ⟨rfl, (control_eq_idle_iff s).mp hidle⟩
    obtain rfl | rfl := eq_or_eq_of_delivers_together h
    all_goals exact takeInputs_events_of_blockRun_idle hboot (by rw [hblock]; rfl)

/-! ### Turning without end -/

/-- The levels of the grey-code cycle repeat after four samples. -/
theorem greyCode_add_four_mul (n i : Nat) : greyCode (4 * n + i) = greyCode i := by
  simp [greyCode]

/-- The events of the change after sample `k` of an endless clockwise turning. -/
def greyEvents (button : Bool) (k : Nat) : List EventWord :=
  edgeEvents (BitVec.ofBool button ++ greyCode k) (BitVec.ofBool button ++ greyCode (k + 1))

/-- They repeat after four changes. -/
theorem greyEvents_add_four_mul (button : Bool) (n i : Nat) :
    greyEvents button (4 * n + i) = greyEvents button i := by
  rw [greyEvents, Nat.add_assoc, greyCode_add_four_mul, greyCode_add_four_mul, greyEvents]

/-- No two lines fall together in an endless clockwise turning. -/
theorem greyEvents_length_le_one (button : Bool) (k : Nat) : (greyEvents button k).length ≤ 1 := by
  rw [← Nat.div_add_mod k 4, greyEvents_add_four_mul]
  have hcycle : ∀ b : Bool, ∀ i < 4, (greyEvents b i).length ≤ 1 := by decide
  exact hcycle button _ (Nat.mod_lt k (by decide))

/-- A faithful front end delivers the changes of an endless clockwise turning one by one. -/
theorem chunks_eq_greyEvents {button : Bool} {pins : Nat → Pins} {chunks : Nat → List EventWord}
    (hpins : ∀ k, pins k = BitVec.ofBool button ++ greyCode k) (h : FrontEndDeliversEveryEdge pins chunks) :
    chunks = greyEvents button := by
  funext k
  have hk := h k
  rw [hpins, hpins] at hk
  exact eq_of_perm_of_length_le_one hk (greyEvents_length_le_one button k)

/-- `n` full turns deliver the words of `CWSTEP` `n` times. -/
theorem flatMap_greyEvents (button : Bool) (n : Nat) :
    (List.range (4 * n)).flatMap (greyEvents button) = (List.replicate n [0x2#4, 0x4#4]).flatten := by
  induction n with
  | zero => rfl
  | succ n ih =>
    have hturn : (List.range 4).flatMap (greyEvents button) = [0x2#4, 0x4#4] := by cases button <;> rfl
    rw [Nat.mul_succ, List.range_add, List.flatMap_append, ih, List.flatMap_map, List.replicate_succ',
      List.flatten_append, List.flatten_singleton]
    simp only [greyEvents_add_four_mul, hturn]

/-- Settles O47: the delivered words are those of `n` clockwise steps. -/
theorem endlessTurnsAreCounted : Obligations.EndlessTurnsAreCounted := by
  intro button pins chunks s hboot hpins hfaithful n
  rw [chunks_eq_greyEvents hpins hfaithful, flatMap_greyEvents]
  obtain ⟨t, hrun, ht⟩ := takeInputs_events_blockRun (List.replicate n [0x2#4, 0x4#4]).flatten hboot
  obtain ⟨hcnt, hflags⟩ := blockRun_cwSteps n (s.block, s.evOut)
  rw [← ht] at hcnt hflags
  exact ⟨t, hrun, hcnt, fun hn => (control_eq_idle_iff t).mpr (Prod.mk.inj (hflags hn))⟩

end Sys2Proof.Machine

/-! PROOFS. The rotation events and sequences of events (40_rotation_edges.md): EDGE_A and EDGE_B whole (R56, R57), the
transition table (R59), the canonical steps (R60, R61), bounce (R62) and stale arming (R63). -/

namespace Sys2Proof.Machine

open Sys2Proof

/-! ### One rotation event -/

/-- The increment is R18's sum modulo 256. -/
theorem increment_eq_ofNat (c : Count) : increment c = BitVec.ofNat 8 ((c.toNat + 1) % 256) := by
  apply BitVec.eq_of_toNat_eq
  simp [increment]

/-- The decrement is R18's sum modulo 256. -/
theorem decrement_eq_ofNat (c : Count) : decrement c = BitVec.ofNat 8 ((c.toNat + 255) % 256) := by
  apply BitVec.eq_of_toNat_eq
  simp [decrement]

/-- A decrement is undone by adding one. -/
theorem decrement_add_one (c : Count) : decrement c + 1 = c := by
  simp [decrement, BitVec.add_assoc]

/-- A flag that arms on level `k` is set when it was clear and the level is `k`, and stays as it is otherwise. -/
theorem or_arming_eq_ite (flag : Bool) (l k : Level) :
    (flag || l == k) = if flag = false ∧ l = k then true else flag := by
  cases flag
  · by_cases h : l = k <;> simp [h]
  · simp

/-- Settles O5: with its confirming clause or without it, the block step of EDGE_A is the pseudocode's. -/
theorem edgeAResult : Obligations.EdgeAResult := by
  intro level s
  rw [exec_eq_writeBlock]
  by_cases hconfirm : s.ccw = true ∧ level = 0b00#2
  · simp only [blockStep, returnToZero, if_pos hconfirm, decrement_eq_ofNat, State.writeBlock]
  · simp only [blockStep, returnToZero, if_neg hconfirm, or_arming_eq_ite, cwIntermediate, State.writeBlock]

/-- Settles O6: with its confirming clause or without it, the block step of EDGE_B is the pseudocode's. -/
theorem edgeBResult : Obligations.EdgeBResult := by
  intro level s
  rw [exec_eq_writeBlock]
  by_cases hconfirm : s.cw = true ∧ level = 0b00#2
  · simp only [blockStep, returnToZero, if_pos hconfirm, increment_eq_ofNat, State.writeBlock]
  · simp only [blockStep, returnToZero, if_neg hconfirm, or_arming_eq_ite, ccwIntermediate, State.writeBlock]

/-! ### The counter and the classification -/

/-- What a classification says of the counter when no button event gave it: `CW` is one up, `CCW` one down (R48). -/
def countChange : Out → Count
  | .none => 0
  | .cw => 1
  | .ccw => -1
  | .reset => 0

/-- Without a button event the counter moves by what the classification says (R56, R57, R65). -/
theorem blockStep_cnt_of_not_btn {i : Instr} (hi : i.line ≠ .btn) (b : Count × Bool × Bool) :
    (blockStep i b).1.1 = b.1 + countChange (blockStep i b).2 := by
  obtain ⟨cnt, cw, ccw⟩ := b
  cases i with
  | edgeA l => by_cases h : ccw = true ∧ l = returnToZero <;> simp [blockStep, h, countChange, decrement]
  | edgeB l => by_cases h : cw = true ∧ l = returnToZero <;> simp [blockStep, h, countChange, increment]
  | edgeBtn l => exact absurd rfl hi
  | edgeOther l => simp [blockStep, countChange]

/-- EDGE_A classifies nothing or `CCW` (R56). -/
theorem blockStep_edgeA_out (l : Level) (b : Count × Bool × Bool) :
    (blockStep (.edgeA l) b).2 = .none ∨ (blockStep (.edgeA l) b).2 = .ccw := by
  rw [blockStep]
  split
  · exact .inr rfl
  · exact .inl rfl

/-- EDGE_B classifies nothing or `CW` (R57). -/
theorem blockStep_edgeB_out (l : Level) (b : Count × Bool × Bool) :
    (blockStep (.edgeB l) b).2 = .none ∨ (blockStep (.edgeB l) b).2 = .cw := by
  rw [blockStep]
  split
  · exact .inr rfl
  · exact .inl rfl

/-- Settles O11: the two clauses of an operation name different levels, and the counter follows the classification. -/
theorem rotationChangesCountByAtMostOne : Obligations.RotationChangesCountByAtMostOne := by
  refine ⟨fun s l => ?_, fun s l => ?_, fun l s => ⟨_, exec_eq_writeBlock _ s, ?_⟩,
    fun l s => ⟨_, exec_eq_writeBlock _ s, ?_⟩⟩
  · rw [armsCw_iff, confirmsCcw_iff]
    rintro ⟨⟨-, rfl⟩, -, hzero⟩
    exact absurd hzero (by decide)
  · rw [armsCcw_iff, confirmsCw_iff]
    rintro ⟨⟨-, rfl⟩, -, hzero⟩
    exact absurd hzero (by decide)
  · have hcnt := blockStep_cnt_of_not_btn (i := .edgeA l) (by simp [Instr.line]) (s.cnt, s.cw, s.ccw)
    obtain hout | hout := blockStep_edgeA_out l (s.cnt, s.cw, s.ccw) <;> rw [hout] at hcnt
    · exact .inl ⟨hout, hcnt.trans (BitVec.add_zero _)⟩
    · exact .inr ⟨hout, (congrArg (· + 1) hcnt).trans (decrement_add_one s.cnt)⟩
  · have hcnt := blockStep_cnt_of_not_btn (i := .edgeB l) (by simp [Instr.line]) (s.cnt, s.cw, s.ccw)
    obtain hout | hout := blockStep_edgeB_out l (s.cnt, s.cw, s.ccw) <;> rw [hout] at hcnt
    · exact .inl ⟨hout, hcnt.trans (BitVec.add_zero _)⟩
    · exact .inr ⟨hout, hcnt⟩

/-! ### The transition table -/

/-- Each row of R59 is a rotation event, its classification says its change of the counter, and from the counter 0 the
block step gives its flags and classification. -/
theorem rotationTable_rows : ∀ row ∈ rotationTable,
    (decodeWord row.word).line ≠ .btn ∧ countChange row.out = row.delta ∧
    (blockStep (decodeWord row.word) (0, row.cw, row.ccw)).1.2 = (row.cw', row.ccw') ∧
    (blockStep (decodeWord row.word) (0, row.cw, row.ccw)).2 = row.out := by
  decide

/-- From any counter, the block step of a row's word is the row. -/
theorem blockStep_of_mem_rotationTable {row : TableRow} (hrow : row ∈ rotationTable) (cnt : Count) :
    blockStep (decodeWord row.word) (cnt, row.cw, row.ccw) =
      ((cnt + row.delta, row.cw', row.ccw'), row.out) := by
  obtain ⟨hline, hdelta, hflags, hout⟩ := rotationTable_rows row hrow
  obtain ⟨hflagsAny, houtAny⟩ := blockStep_flags_out_of_any_count (decodeWord row.word) cnt 0 (row.cw, row.ccw)
  have hout' := houtAny.trans hout
  have hcnt := blockStep_cnt_of_not_btn hline (cnt, row.cw, row.ccw)
  rw [hout', hdelta] at hcnt
  exact Prod.ext (Prod.ext hcnt (hflagsAny.trans hflags)) hout'

/-- Settles O10: the block step of each row's word is the row, and a row is found by its flags and word. -/
theorem rotationTableAgrees : Obligations.RotationTableAgrees := by
  refine ⟨fun row hrow s hcw hccw => ?_, by decide⟩
  rw [exec_eq_writeBlock, hcw, hccw, blockStep_of_mem_rotationTable hrow]
  rfl

/-! ### Programs of events on the block -/

/-- An event's word decodes to the event. -/
theorem decodeWord_encode (i : Instr) : decodeWord (encode i) = i := by
  rw [decodeWord, encode, Laws.Encoding.lineField_append, Laws.Encoding.levelField_append, Line.ofCode_code,
    Instr.ofLine_line_level]

/-- A program of events on the block: each event's block step in turn, and the classifications in order. -/
def blockProgram : List Instr → Count × Bool × Bool → (Count × Bool × Bool) × List Out
  | [], b => (b, [])
  | i :: is, b =>
    ((blockProgram is (blockStep i b).1).1, (blockStep i b).2 :: (blockProgram is (blockStep i b).1).2)

/-- After boot, a program of events completes, and leaves the block and gives the classifications of its run on the
block. -/
theorem runProgram_events (is : List Instr) {s : State} (hboot : s.boot = .delivering) :
    ∃ t, runProgram (eventItems is) s = .next ⟨t, (blockProgram is s.block).2, []⟩ ∧
      t.block = (blockProgram is s.block).1 := by
  induction is generalizing s with
  | nil => exact ⟨s, rfl, rfl⟩
  | cons i is ih =>
    have hstep := deliverEvent_eq_writeBlock hboot (encode i)
    rw [decodeWord_encode] at hstep
    obtain ⟨t, hrun, ht⟩ := ih (s := (s.writeBlock (blockStep i s.block)).noteOverlap) (by simpa using hboot)
    have hblock : (s.writeBlock (blockStep i s.block)).noteOverlap.block = (blockStep i s.block).1 := by
      simp [State.block, State.writeBlock]
    have hout : (s.writeBlock (blockStep i s.block)).noteOverlap.evOut = (blockStep i s.block).2 := by
      simp [State.writeBlock]
    rw [hblock] at hrun ht
    refine ⟨t, ?_, ht⟩
    rw [eventItems, List.map_cons, runProgram_event i _ hstep, hout, ← eventItems, hrun]
    rfl

/-- After boot, a program of events completes with what is known of its run on the block. -/
theorem runProgram_events_of_blockProgram {is : List Instr} {s : State} {cnt : Count} {cw ccw : Bool} {outs : List Out}
    (hboot : s.boot = .delivering) (h : blockProgram is s.block = ((cnt, cw, ccw), outs)) :
    ∃ t, runProgram (eventItems is) s = .next ⟨t, outs, []⟩ ∧ t.cnt = cnt ∧ t.cw = cw ∧ t.ccw = ccw := by
  obtain ⟨t, hrun, ht⟩ := runProgram_events is hboot
  rw [h] at hrun ht
  exact ⟨t, hrun, (block_eq_iff ..).mp ht⟩

/-- The same for a run that ends in IDLE. -/
theorem runProgram_events_of_blockProgram_idle {is : List Instr} {s : State} {cnt : Count} {outs : List Out}
    (hboot : s.boot = .delivering) (h : blockProgram is s.block = ((cnt, false, false), outs)) :
    ∃ t, runProgram (eventItems is) s = .next ⟨t, outs, []⟩ ∧ t.cnt = cnt ∧ t.control = .idle := by
  obtain ⟨t, hrun, hcnt, hflags⟩ := runProgram_events_of_blockProgram hboot h
  exact ⟨t, hrun, hcnt, (control_eq_idle_iff t).mpr hflags⟩

/-- A run goes on from what its first event leaves. -/
theorem blockProgram_cons_of_eq {i : Instr} {is : List Instr} {b c d : Count × Bool × Bool} {o : Out} {outs : List Out}
    (hi : blockStep i b = (c, o)) (his : blockProgram is c = (d, outs)) :
    blockProgram (i :: is) b = (d, o :: outs) := by
  rw [blockProgram, hi, his]

/-- Runs compose, and their classifications follow one another. -/
theorem blockProgram_append_of_eq {is js : List Instr} {b c d : Count × Bool × Bool} {outs outs' : List Out}
    (his : blockProgram is b = (c, outs)) (hjs : blockProgram js c = (d, outs')) :
    blockProgram (is ++ js) b = (d, outs ++ outs') := by
  induction is generalizing b outs with
  | nil =>
    cases his
    exact hjs
  | cons i is ih =>
    rw [blockProgram, Prod.mk.injEq] at his
    obtain ⟨hblock, rfl⟩ := his
    exact blockProgram_cons_of_eq rfl (ih (Prod.ext hblock rfl))

/-! ### Arming and confirming -/

/-- The arming event of EDGE_A sets `cw` and nothing else, armed or not (R56). -/
theorem blockStep_arm_cw (cnt : Count) (cw ccw : Bool) :
    blockStep (.edgeA cwIntermediate) (cnt, cw, ccw) = ((cnt, true, ccw), .none) := by
  simp [blockStep, cwIntermediate, returnToZero]

/-- The arming event of EDGE_B sets `ccw` and nothing else, armed or not (R57). -/
theorem blockStep_arm_ccw (cnt : Count) (cw ccw : Bool) :
    blockStep (.edgeB ccwIntermediate) (cnt, cw, ccw) = ((cnt, cw, true), .none) := by
  simp [blockStep, ccwIntermediate, returnToZero]

/-- The confirming event of EDGE_B, clockwise armed, counts one up and ends in IDLE (R57). -/
theorem blockStep_confirm_cw (cnt : Count) (ccw : Bool) :
    blockStep (.edgeB returnToZero) (cnt, true, ccw) = ((increment cnt, false, false), .cw) := rfl

/-- The confirming event of EDGE_A, counter-clockwise armed, counts one down and ends in IDLE (R56). -/
theorem blockStep_confirm_ccw (cnt : Count) (cw : Bool) :
    blockStep (.edgeA returnToZero) (cnt, cw, true) = ((decrement cnt, false, false), .ccw) := rfl

/-! ### The canonical steps -/

/-- `CWSTEP` counts one up and ends in IDLE, from any flags (R60). -/
theorem blockProgram_cwStep (b : Count × Bool × Bool) :
    blockProgram cwStep b = ((increment b.1, false, false), [.none, .cw]) :=
  blockProgram_cons_of_eq (blockStep_arm_cw ..) (blockProgram_cons_of_eq (blockStep_confirm_cw ..) rfl)

/-- `CCWSTEP` counts one down and ends in IDLE, from any flags (R61). -/
theorem blockProgram_ccwStep (b : Count × Bool × Bool) :
    blockProgram ccwStep b = ((decrement b.1, false, false), [.none, .ccw]) :=
  blockProgram_cons_of_eq (blockStep_arm_ccw ..) (blockProgram_cons_of_eq (blockStep_confirm_ccw ..) rfl)

/-- Settles O20: the run of `CWSTEP` on the block does not depend on the flags. -/
theorem canonicalClockwiseStep : Obligations.CanonicalClockwiseStep := by
  intro s hboot
  rw [← increment_eq_ofNat]
  exact runProgram_events_of_blockProgram_idle hboot (blockProgram_cwStep s.block)

/-- Settles O21: the run of `CCWSTEP` on the block does not depend on the flags. -/
theorem canonicalCounterClockwiseStep : Obligations.CanonicalCounterClockwiseStep := by
  intro s hboot
  rw [← decrement_eq_ofNat]
  exact runProgram_events_of_blockProgram_idle hboot (blockProgram_ccwStep s.block)

/-- The events of a sequence of canonical steps, `true` clockwise. -/
def detentEvents (ds : List Bool) : List Instr := ds.flatMap fun d => if d then cwStep else ccwStep

/-- The classifications of a sequence of canonical steps, a pair for each. -/
def detentOuts (ds : List Bool) : List Out := ds.flatMap fun d => [.none, if d then .cw else .ccw]

/-- The counter after a sequence of canonical steps. -/
def detentCount (ds : List Bool) (cnt : Count) : Count :=
  cnt + BitVec.ofNat 8 (ds.count true) - BitVec.ofNat 8 (ds.count false)

/-- One canonical step in either direction counts one and ends in IDLE. -/
theorem blockProgram_detent (d : Bool) (b : Count × Bool × Bool) :
    blockProgram (if d then cwStep else ccwStep) b =
      ((detentCount [d] b.1, false, false), [.none, if d then .cw else .ccw]) := by
  cases d with
  | true => simp [blockProgram_cwStep, detentCount, increment]
  | false => simp [blockProgram_ccwStep, detentCount, decrement, BitVec.sub_eq_add_neg]

/-- The first step counts before the rest. -/
theorem detentCount_cons (d : Bool) (ds : List Bool) (cnt : Count) :
    detentCount (d :: ds) cnt = detentCount ds (detentCount [d] cnt) := by
  cases d <;> simp [detentCount] <;> bv_omega

/-- The flags after a sequence of canonical steps: IDLE, unless there was no step. -/
def detentFlags (ds : List Bool) (flags : Bool × Bool) : Bool × Bool := if ds = [] then flags else (false, false)

/-- A sequence of canonical steps counts each of them. -/
theorem blockProgram_detentEvents (ds : List Bool) (b : Count × Bool × Bool) :
    blockProgram (detentEvents ds) b = ((detentCount ds b.1, detentFlags ds b.2), detentOuts ds) := by
  induction ds generalizing b with
  | nil => simp [detentEvents, detentOuts, detentCount, detentFlags, blockProgram]
  | cons d ds ih =>
    have hrun := blockProgram_append_of_eq (blockProgram_detent d b) (ih _)
    rw [← detentCount_cons] at hrun
    simpa [detentFlags, detentEvents, detentOuts] using hrun

/-- Settles O22: by induction over the steps, each of which ends in IDLE. -/
theorem detentsAreCountedExactly : Obligations.DetentsAreCountedExactly := by
  intro ds s hboot
  obtain ⟨t, hrun, ht⟩ := runProgram_events (detentEvents ds) hboot
  rw [blockProgram_detentEvents] at hrun ht
  obtain ⟨hcnt, hflags⟩ := Prod.mk.inj ht
  refine ⟨t, hrun, hcnt, fun hne => (control_eq_idle_iff t).mpr (Prod.mk.inj ?_)⟩
  rw [hflags, detentFlags, if_neg hne]

/-! ### Sequences of any events -/

/-- A run gives one classification an event (R11). -/
theorem blockProgram_outs_length (is : List Instr) (b : Count × Bool × Bool) :
    (blockProgram is b).2.length = is.length := by
  induction is generalizing b with
  | nil => rfl
  | cons i is ih => rw [blockProgram, List.length_cons, ih, List.length_cons]

/-- The changes of the counter that classifications say add up to the number of `CW` less the number of `CCW`. -/
theorem countChange_add_counts (o : Out) (outs : List Out) (c : Count) :
    c + countChange o + BitVec.ofNat 8 (outs.count .cw) - BitVec.ofNat 8 (outs.count .ccw) =
      c + BitVec.ofNat 8 ((o :: outs).count .cw) - BitVec.ofNat 8 ((o :: outs).count .ccw) := by
  cases o <;> simp [countChange] <;> bv_omega

/-- Without a button event the counter moves by the number of `CW` less the number of `CCW`. -/
theorem blockProgram_cnt_of_no_btn {is : List Instr} (his : ∀ i ∈ is, i.line ≠ .btn) (b : Count × Bool × Bool) :
    (blockProgram is b).1.1 = b.1 + BitVec.ofNat 8 ((blockProgram is b).2.count .cw) -
      BitVec.ofNat 8 ((blockProgram is b).2.count .ccw) := by
  induction is generalizing b with
  | nil => simp [blockProgram]
  | cons i is ih =>
    obtain ⟨hi, hrest⟩ := List.forall_mem_cons.mp his
    rw [blockProgram, ih hrest, blockStep_cnt_of_not_btn hi, countChange_add_counts]

/-- Settles O23: every step's change of the counter is the one its classification says. -/
theorem counterFollowsClassifications : Obligations.CounterFollowsClassifications := by
  intro is s hboot his
  obtain ⟨t, hrun, ht⟩ := runProgram_events is hboot
  have hcnt : t.cnt = (blockProgram is s.block).1.1 := congrArg Prod.fst ht
  exact ⟨_, hrun, blockProgram_outs_length is _, hcnt.trans (blockProgram_cnt_of_no_btn his _)⟩

/-- The program that repeats one event. -/
theorem eventItems_replicate (n : Nat) (i : Instr) : eventItems (.replicate n i) = .replicate n (.event i) :=
  List.map_replicate

/-- An event that leaves the block in a state where the event itself does nothing acts once, however often it comes. -/
theorem blockProgram_replicate_of_idempotent {i : Instr} {b c : Count × Bool × Bool} {o : Out} (n : Nat)
    (hfirst : blockStep i b = (c, o)) (hagain : blockStep i c = (c, .none)) :
    blockProgram (.replicate (n + 1) i) b = (c, o :: .replicate n .none) := by
  have hrest : blockProgram (.replicate n i) c = (c, .replicate n .none) := by
    induction n with
    | zero => rfl
    | succ n ih => exact blockProgram_cons_of_eq hagain ih
  exact blockProgram_cons_of_eq hfirst hrest

/-- Settles O24: each of the four events does nothing to the block it leaves. -/
theorem bounceOfOneContactCountsOnce : Obligations.BounceOfOneContactCountsOnce := by
  intro n s hboot
  simp only [← eventItems_replicate]
  refine ⟨?_, ?_, fun hcw => ?_, fun hccw => ?_⟩
  · exact runProgram_events_of_blockProgram hboot
      (blockProgram_replicate_of_idempotent n (blockStep_arm_cw ..) (blockStep_arm_cw ..))
  · exact runProgram_events_of_blockProgram hboot
      (blockProgram_replicate_of_idempotent n (blockStep_arm_ccw ..) (blockStep_arm_ccw ..))
  · have hblock : s.block = (s.cnt, true, s.ccw) := (block_eq_iff ..).mpr ⟨rfl, hcw, rfl⟩
    exact runProgram_events_of_blockProgram_idle hboot
      (hblock ▸ blockProgram_replicate_of_idempotent n (blockStep_confirm_cw ..) rfl)
  · have hblock : s.block = (s.cnt, s.cw, true) := (block_eq_iff ..).mpr ⟨rfl, rfl, hccw⟩
    obtain ⟨t, hrun, hcnt, hidle⟩ := runProgram_events_of_blockProgram_idle hboot
      (hblock ▸ blockProgram_replicate_of_idempotent n (blockStep_confirm_ccw ..) rfl)
    exact ⟨t, hrun, by rw [hcnt, decrement_add_one], hidle⟩

/-- An event that classifies no rotation clears no flag: in the order of `Bool`, the flags do not fall (R63). -/
theorem flags_le_blockStep {i : Instr} {b : Count × Bool × Bool}
    (h : (blockStep i b).2 ≠ .cw ∧ (blockStep i b).2 ≠ .ccw) : b.2 ≤ (blockStep i b).1.2 := by
  obtain ⟨cnt, cw, ccw⟩ := b
  cases i with
  | edgeA l =>
    by_cases hconfirm : ccw = true ∧ l = returnToZero
    · exact absurd (by simp [blockStep, hconfirm]) h.2
    · simp +contextual [blockStep, hconfirm, Bool.le_iff_imp]
  | edgeB l =>
    by_cases hconfirm : cw = true ∧ l = returnToZero
    · exact absurd (by simp [blockStep, hconfirm]) h.1
    · simp +contextual [blockStep, hconfirm, Bool.le_iff_imp]
  | edgeBtn l => exact le_refl _
  | edgeOther l => exact le_refl _

/-- The same for a run in which no rotation is classified. -/
theorem flags_le_blockProgram {is : List Instr} {b : Count × Bool × Bool}
    (h : ∀ o ∈ (blockProgram is b).2, o ≠ .cw ∧ o ≠ .ccw) : b.2 ≤ (blockProgram is b).1.2 := by
  induction is generalizing b with
  | nil => exact le_refl _
  | cons i is ih =>
    obtain ⟨hi, hrest⟩ := List.forall_mem_cons.mp h
    exact (flags_le_blockStep hi).trans (ih hrest)

/-- Settles O25: no step that classifies no rotation clears a flag. -/
theorem armedFlagHasNoTimeout : Obligations.ArmedFlagHasNoTimeout := by
  intro is s hboot
  obtain ⟨t, hrun, ht⟩ := runProgram_events is hboot
  refine ⟨_, hrun, fun hnone => ?_⟩
  have hflags : s.block.2 ≤ t.block.2 := by
    rw [ht]
    exact flags_le_blockProgram hnone
  exact ⟨Bool.le_iff_imp.mp hflags.1, Bool.le_iff_imp.mp hflags.2⟩

/-! ### BOTH_ARMED -/

/-- BOTH_ARMED is both flags set (R21). -/
theorem control_eq_bothArmed_iff (s : State) : s.control = .bothArmed ↔ s.cw = true ∧ s.ccw = true := by
  cases hcw : s.cw <;> cases hccw : s.ccw <;> simp [State.control, hcw, hccw]

/-- A block in BOTH_ARMED, told by its fields. -/
theorem block_eq_bothArmed_iff (s : State) (cnt : Count) :
    s.block = (cnt, true, true) ↔ s.cnt = cnt ∧ s.control = .bothArmed := by
  rw [block_eq_iff, control_eq_bothArmed_iff]

/-- After boot, an event completes, and leaves in the block and its output what its block step leaves. -/
theorem takeInput_event_blockStep {s : State} (hboot : s.boot = .delivering) (w : EventWord) :
    ∃ t, takeInput (.event w) s = .next t ∧ t.boot = .delivering ∧
      (t.block, t.evOut) = blockStep (decodeWord w) s.block := by
  refine ⟨_, deliverEvent_eq_writeBlock hboot w, by simpa using hboot, ?_⟩
  simp [State.block, State.writeBlock]

/-- Two events after boot complete, and leave in the block what their block steps leave. -/
theorem takeInputs_two_events {s : State} (hboot : s.boot = .delivering) (w w' : EventWord) :
    ∃ t, takeInputs [.event w, .event w'] s = .next t ∧ t.boot = .delivering ∧
      t.block = (blockStep (decodeWord w') (blockStep (decodeWord w) s.block).1).1 := by
  obtain ⟨u, hu, huboot, hublock⟩ := takeInput_event_blockStep hboot w
  obtain ⟨t, ht, htboot, htblock⟩ := takeInput_event_blockStep huboot w'
  refine ⟨t, by rw [takeInputs_cons_next hu, takeInputs_cons_next ht, takeInputs_nil], htboot, ?_⟩
  rw [← hublock, ← htblock]

/-- After boot, an event that returns the block to IDLE leaves the counter and output of its block step. -/
theorem takeInput_event_of_blockStep_idle {s : State} {w : EventWord} {cnt : Count} {o : Out}
    (hboot : s.boot = .delivering) (h : blockStep (decodeWord w) s.block = ((cnt, false, false), o)) :
    ∃ t, takeInput (.event w) s = .next t ∧ t.control = .idle ∧ t.cnt = cnt ∧ t.evOut = o := by
  obtain ⟨t, hstep, -, ht⟩ := takeInput_event_blockStep hboot w
  obtain ⟨hblock, hout⟩ := Prod.mk.inj (ht.trans h)
  obtain ⟨hcnt, hflags⟩ := (block_eq_iff ..).mp hblock
  exact ⟨t, hstep, (control_eq_idle_iff t).mpr hflags, hcnt, hout⟩

/-- Settles O19: from IDLE the two arming events set both flags in either order, and from there each return to zero
confirms its direction. -/
theorem bothArmedIsReachedAndLeft : Obligations.BothArmedIsReachedAndLeft := by
  intro s hboot hidle
  have hblock : s.block = (s.cnt, false, false) := (block_eq_iff ..).mpr ⟨rfl, (control_eq_idle_iff s).mp hidle⟩
  obtain ⟨t, ht, htboot, htblock⟩ := takeInputs_two_events hboot 0x2#4 0x5#4
  obtain ⟨u, hu, -, hublock⟩ := takeInputs_two_events hboot 0x5#4 0x2#4
  rw [hblock] at htblock hublock
  have htArmed : t.block = (s.cnt, true, true) := htblock
  have huArmed : u.block = (s.cnt, true, true) := hublock
  obtain ⟨htcnt, htcontrol⟩ := (block_eq_bothArmed_iff ..).mp htArmed
  obtain ⟨hucnt, hucontrol⟩ := (block_eq_bothArmed_iff ..).mp huArmed
  refine ⟨t, u, ht, hu, htcontrol, hucontrol, htcnt, hucnt, ?_, ?_⟩
  · obtain ⟨v, hv, hvidle, hvcnt, hvout⟩ :=
      takeInput_event_of_blockStep_idle (w := 0x0#4) htboot (htArmed ▸ blockStep_confirm_ccw s.cnt true)
    exact ⟨v, hv, hvidle, by rw [hvcnt, decrement_add_one], hvout⟩
  · exact takeInput_event_of_blockStep_idle (w := 0x4#4) htboot (htArmed ▸ blockStep_confirm_cw s.cnt true)

end Sys2Proof.Machine

/-! PROOFS. The button event (41_button_and_other.md): EDGE_BTN whole (R64) and a bouncing press (R66). -/

namespace Sys2Proof.Machine

open Sys2Proof

/-- EDGE_BTN clears the counter, keeps the flags and classifies `RESET`, whatever the level (R64). -/
theorem blockStep_btn (level : Level) (cnt : Count) (flags : Bool × Bool) :
    blockStep (.edgeBtn level) (cnt, flags) = ((0, flags), .reset) := rfl

/-- Settles O7: the block step of EDGE_BTN, written into the machine. -/
theorem edgeBtnResult : Obligations.EdgeBtnResult := by
  intro level s
  rw [exec_eq_writeBlock, blockStep_btn]
  rfl

/-- At least one button event clears the counter, keeps the flags and classifies `RESET` each time (R66). -/
theorem blockProgram_btns (level : Level) (levels : List Level) (cnt : Count) (flags : Bool × Bool) :
    blockProgram ((level :: levels).map .edgeBtn) (cnt, flags) =
      ((0, flags), .replicate (levels.length + 1) .reset) := by
  induction levels generalizing level cnt with
  | nil => exact blockProgram_cons_of_eq (blockStep_btn level cnt flags) rfl
  | cons next levels ih => exact blockProgram_cons_of_eq (blockStep_btn level cnt flags) (ih next 0)

/-- Settles O26: by induction over the levels, each event leaves the cleared counter and the flags to the next. -/
theorem bouncingButtonActsOnce : Obligations.BouncingButtonActsOnce := by
  intro levels s hboot hne
  obtain ⟨level, levels, rfl⟩ := List.exists_cons_of_ne_nil hne
  exact runProgram_events_of_blockProgram hboot (blockProgram_btns level levels s.cnt (s.cw, s.ccw))

end Sys2Proof.Machine

/-! PROOFS. The consumer and the record of its display calls (42_read_port_and_consumer.md): who writes what (R86), one
iteration and the render count (R72, R76), a display that does not come up (R77, R81), and the invariant of the machine. -/

namespace Sys2Proof.Machine

open Sys2Proof

/-! ### Who writes what -/

@[simp] theorem State.writeBlock_last (r : (Count × Bool × Bool) × Out) (s : State) : (s.writeBlock r).last = s.last := rfl
@[simp] theorem State.writeBlock_displayCalls (r : (Count × Bool × Bool) × Out) (s : State) :
    (s.writeBlock r).displayCalls = s.displayCalls := rfl

/-- A delivered event that answers a next state is its block step, noted by a read in progress. -/
theorem eq_noteOverlap_of_deliverEvent {w : EventWord} {s t : State} (h : deliverEvent w s = .next t) :
    t = (s.writeBlock (blockStep (decodeWord w) s.block)).noteOverlap := by
  rw [deliverEvent_eq_writeBlock (deliverEvent_cases h).1] at h
  cases h
  rfl

/-- Settles O16: the consumer's inputs write only what is the consumer's own; events and resets write the block, which
at most a read in progress notes. -/
theorem agentsWriteOnlyTheirOwn : Obligations.AgentsWriteOnlyTheirOwn := by
  intro inp s t h
  refine ⟨fun hc => sameBlock_of_withoutConsumer (takeInput_ofConsumer_withoutConsumer hc h), fun hop hc => ?_⟩
  obtain ⟨w, -, hd⟩ | ⟨-, -, rfl⟩ | ⟨-, -, rfl, -⟩ | ⟨-, -, rfl, -⟩ | ⟨-, -, -, rfl⟩ |
    ⟨-, -, ⟨ok, rfl, -⟩, -⟩ | ⟨-, -, -, ht⟩ := takeInput_cases h
  · rw [eq_noteOverlap_of_deliverEvent hd]
    simp
  · simp
  · cases hop
  · cases hc
  · simp
  · cases hc
  · rw [ht]
    exact ⟨rfl, rfl⟩

/-! ### One iteration, and the renders of a sampled sequence -/

/-- An iteration with no step inside it renders the counter if it differs from `last`, leaves it in `last`, and ends at
the top of the loop (R72). -/
theorem consumerActions_iteration {s : State} (h : s.consumer = .poll) :
    consumerActions (iterationLength s) s = { s with
      last := s.cnt
      displayCalls := s.displayCalls ++ (if s.cnt = s.last then [] else renderCalls s.cnt)
      reads := s.reads + 1 } := by
  rcases s with ⟨cnt, cw, ccw, out, boot, consumer, last, calls, ins, on, reads, ups⟩
  obtain rfl : consumer = .poll := h
  by_cases hlast : cnt = last <;>
    simp [iterationLength, readCount, consumerActions, State.consumerAction, State.compare, State.call, renderCalls, hlast]

/-- Over a sampled sequence the consumer renders the values that differ from their predecessor, in order, and ends at
the top of its loop with the last sample in `last` (R76). -/
theorem pollSamples_renders (vs : List Count) {s : State} (h : s.consumer = .poll) :
    (pollSamples vs s).displayCalls = s.displayCalls ++ (renderedValues s.last vs).flatMap renderCalls ∧
    (pollSamples vs s).last = vs.getLast?.getD s.last ∧ (pollSamples vs s).consumer = .poll := by
  induction vs generalizing s with
  | nil => simp [pollSamples, renderedValues, h]
  | cons v vs ih =>
    have iteration := consumerActions_iteration (s := { s with cnt := v }) h
    obtain ⟨hcalls, hlast, hpoll⟩ := ih (congrArg State.consumer iteration |>.trans h)
    refine ⟨?_, ?_, hpoll⟩
    · rw [pollSamples, hcalls, iteration]
      by_cases hv : v = s.last <;> simp [renderedValues, hv]
    · rw [pollSamples, hlast, iteration, List.getLast?_cons, Option.getD_some]

/-- The number of values rendered is the number of indices at which a sample differs from its predecessor (R76). -/
theorem renderedValues_length (prev : Count) (vs : List Count) :
    (renderedValues prev vs).length =
      ((List.range vs.length).filter fun i => decide (vs[i]? ≠ (prev :: vs)[i]?)).length := by
  induction vs generalizing prev with
  | nil => rfl
  | cons v vs ih =>
    rw [renderedValues, List.length_append, ih, List.length_cons, List.range_succ_eq_map, List.filter_cons,
      List.filter_map]
    by_cases hv : v = prev <;> simp [hv, Function.comp_def, Nat.add_comm]

/-- Settles O39: by induction over the samples, and the two counts of C2 by running `renderedValues`. -/
theorem rendersOncePerChange : Obligations.RendersOncePerChange :=
  ⟨fun vs _ h => pollSamples_renders vs h, renderedValues_length, by decide, by decide⟩

/-! ### A display that does not come up -/

/-- A consumer that is not reading notes nothing. -/
theorem noteOverlap_of_not_reading {s : State} (h : ∀ first later, s.consumer ≠ .reading first later) :
    s.noteOverlap = s := by
  obtain ⟨first, later, hread, -⟩ | ⟨-, heq⟩ := s.noteOverlap_consumer
  · exact absurd hread (h first later)
  · exact heq

/-- With no read in progress, a delivered event after boot is its execution alone. -/
theorem deliverEvent_of_not_reading {s : State} (hboot : s.boot = .delivering)
    (h : ∀ first later, s.consumer ≠ .reading first later) (w : EventWord) :
    deliverEvent w s = exec (decodeWord w) s := by
  rw [deliverEvent_delivering hboot, exec_eq_writeBlock, withOverlap_next, noteOverlap_of_not_reading (by simpa using h)]

/-- A consumer whose display did not come up does nothing, however often its turn comes (R77). -/
theorem consumerActions_of_displayFailed {s : State} (h : s.consumer = .displayFailed) (n : Nat) :
    consumerActions n s = s := by
  induction n with
  | zero => rfl
  | succ n ih =>
    have hact : s.consumerAction = s := by simp [State.consumerAction, h]
    rw [consumerActions, hact, ih]

/-- A consumer that has not started, or whose display failed, can be started. -/
theorem takeInput_startConsumer {s : State} (h : s.consumer = .notStarted ∨ s.consumer = .displayFailed) (ok : Bool) :
    takeInput (.startConsumer ok) s = .next (s.beginConsumer ok) := by
  obtain h | h := h <;> simp [takeInput, startConsumer, h]

/-- Settles O41: the failed start leaves the consumer halted, which neither acts nor notes the block's steps. -/
theorem failedDisplayRendersNothing : Obligations.FailedDisplayRendersNothing := by
  intro s hstart
  have hhalted : (s.beginConsumer false).consumer = .displayFailed := rfl
  exact ⟨s.beginConsumer false, takeInput_startConsumer hstart false, rfl, rfl, ⟨rfl, rfl, rfl, rfl, rfl⟩,
    consumerActions_of_displayFailed hhalted, fun hboot => deliverEvent_of_not_reading hboot (by simp)⟩

/-! ### The invariant -/

/-- Settles O49: no read is in progress at reset, and the one bring-up call is followed by no render. -/
theorem resetHasInvariant : Obligations.ResetHasInvariant where
  window := nofun
  calls := ⟨1, [], rfl, by simp, rfl⟩

/-- The order of the calls is a matter of the consumer's place, `last` and the calls themselves. -/
theorem callsInOrder_congr {s t : State} (hconsumer : t.consumer = s.consumer) (hlast : t.last = s.last)
    (hcalls : t.displayCalls = s.displayCalls) : t.CallsInOrder ↔ s.CallsInOrder := by
  simp only [State.CallsInOrder, RenderedBy, hconsumer, hlast, hcalls]

/-- The invariant speaks of the counter, the consumer's place, `last` and the display calls only. -/
theorem State.Inv.congr {s t : State} (hs : s.Inv) (hcnt : t.cnt = s.cnt) (hconsumer : t.consumer = s.consumer)
    (hlast : t.last = s.last) (hcalls : t.displayCalls = s.displayCalls) : t.Inv where
  window := by
    intro first later hread
    rw [hcnt]
    exact hs.window first later (hconsumer ▸ hread)
  calls := (callsInOrder_congr hconsumer hlast hcalls).mpr hs.calls

/-- A read in progress that has noted the counter may return it (R37). -/
theorem noteOverlap_windowCurrent (s : State) : s.noteOverlap.WindowCurrent := by
  intro first later hread
  obtain ⟨first', later', -, hnoted⟩ | ⟨hnot, heq⟩ := s.noteOverlap_consumer
  · rw [hnoted] at hread
    cases hread
    rw [← List.cons_append, List.getLast?_concat, State.noteOverlap_cnt]
  · exact absurd (heq ▸ hread) (hnot first later)

/-- What a read in progress notes is no display call, and leaves the consumer at its place. -/
theorem noteOverlap_callsInOrder (s : State) : s.noteOverlap.CallsInOrder ↔ s.CallsInOrder := by
  obtain ⟨first, later, hread, hnoted⟩ | ⟨-, heq⟩ := s.noteOverlap_consumer
  · simp [State.CallsInOrder, RenderedBy, hread, hnoted, pendingCalls]
  · rw [heq]

/-- Whatever an event or a reset writes to the block, the invariant is kept once a read in progress has noted it. -/
theorem State.Inv.noteOverlap {s u : State} (hs : s.Inv) (hconsumer : u.consumer = s.consumer) (hlast : u.last = s.last)
    (hcalls : u.displayCalls = s.displayCalls) : u.noteOverlap.Inv where
  window := noteOverlap_windowCurrent u
  calls := (noteOverlap_callsInOrder u).mpr ((callsInOrder_congr hconsumer hlast hcalls).mpr hs.calls)

/-- The one action that leaves a read in progress is its beginning, with the counter as the one value (R72). -/
theorem consumerAction_windowCurrent (s : State) : s.consumerAction.WindowCurrent := by
  intro first later hread
  cases hc : s.consumer <;> simp [State.consumerAction, hc, State.compare, ite_eq_iff] at hread
  case poll =>
    obtain ⟨rfl, rfl⟩ := hread
    simp [readCount]

/-- A value that differs from the latest one rendered, the sentinel 255 before the first, may be rendered next (R76). -/
theorem isChain_append_of_ne {vs : List Count} {last v : Count} (hchain : (255 :: vs).IsChain (· ≠ ·))
    (hlast : (255 :: vs).getLast? = some last) (hv : v ≠ last) : (255 :: (vs ++ [v])).IsChain (· ≠ ·) := by
  rw [← List.cons_append]
  refine hchain.append (.singleton v) ?_
  simp only [hlast]
  simpa using hv.symm

/-- The comparison at the end of a read calls no display, and sends to a render only a value that differs from `last`. -/
theorem compare_callsInOrder {s : State} {first : Count} {later : List Count} (hread : s.consumer = .reading first later)
    (v : Count) (h : s.CallsInOrder) : (s.compare v).CallsInOrder := by
  obtain ⟨k, vs, hcalls, hchain, hplace⟩ := h
  simp only [RenderedBy, hread, pendingCalls] at hcalls hplace
  by_cases hv : v = s.last <;>
    exact ⟨k, vs, by simp [hv, hcalls, pendingCalls], hchain, by simpa [RenderedBy, hv] using hplace⟩

/-- Each action of the consumer keeps the calls in order: a value is rendered only after the comparison found it to
differ, and enters the rendered values with its flush (R72). -/
theorem consumerAction_callsInOrder {s : State} (h : s.CallsInOrder) : s.consumerAction.CallsInOrder := by
  obtain ⟨k, vs, hcalls, hchain, hplace⟩ := h
  rcases s with ⟨cnt, cw, ccw, out, boot, consumer, last, calls, ins, on, reads, ups⟩
  obtain rfl : calls = .replicate k .bringUp ++ vs.flatMap renderCalls ++ pendingCalls consumer := hcalls
  cases consumer with
  | notStarted => exact ⟨k, vs, rfl, hchain, hplace⟩
  | displayFailed => exact ⟨k, vs, rfl, hchain, hplace⟩
  | poll => exact ⟨k, vs, rfl, hchain, hplace⟩
  | reading first later => exact compare_callsInOrder rfl _ ⟨k, vs, rfl, hchain, hplace⟩
  | clear v => exact ⟨k, vs, by simp [State.consumerAction, State.call, pendingCalls], hchain, hplace⟩
  | draw v => exact ⟨k, vs, by simp [State.consumerAction, State.call, pendingCalls], hchain, hplace⟩
  | flush v =>
    obtain ⟨hlast, hv⟩ := hplace
    refine ⟨k, vs ++ [v], ?_, isChain_append_of_ne hchain hlast hv, by simp [RenderedBy, State.consumerAction]⟩
    simp [State.consumerAction, State.call, pendingCalls, renderCalls]
  | record v =>
    have hlast : vs.getLast? = some v := hplace
    exact ⟨k, vs, rfl, hchain, by simp [RenderedBy, State.consumerAction, List.getLast?_cons, hlast]⟩
  | sleep => exact ⟨k, vs, rfl, hchain, hplace⟩

/-- Starting a consumer that has rendered nothing adds one bring-up to the bring-ups (R71, R81). -/
theorem beginConsumer_callsInOrder {s : State} (hstart : s.consumer = .notStarted ∨ s.consumer = .displayFailed)
    (ok : Bool) (h : s.CallsInOrder) : (s.beginConsumer ok).CallsInOrder := by
  obtain ⟨k, vs, hcalls, -, hplace⟩ := h
  have hbringUps : s.displayCalls = .replicate k .bringUp := by
    obtain hc | hc := hstart <;>
      simpa [pendingCalls, hc, show vs = [] by simpa [RenderedBy, hc] using hplace] using hcalls
  cases ok <;>
    exact ⟨k + 1, [], by simp [hbringUps, pendingCalls, List.replicate_succ'], by simp, by simp [RenderedBy]⟩

/-- Every input that answers a next state keeps the invariant. -/
theorem takeInput_keeps_inv {inp : Input} {s t : State} (hs : s.Inv) (h : takeInput inp s = .next t) : t.Inv := by
  obtain ⟨w, -, hd⟩ | ⟨-, -, rfl⟩ | ⟨-, -, -, rfl⟩ | ⟨-, -, -, rfl⟩ | ⟨-, -, -, rfl⟩ |
    ⟨-, -, ⟨ok, -, rfl⟩, hstart⟩ | ⟨-, -, -, ht⟩ := takeInput_cases h
  · rw [eq_noteOverlap_of_deliverEvent hd]
    exact hs.noteOverlap rfl rfl rfl
  · exact hs.noteOverlap rfl rfl rfl
  · exact ⟨nofun, 0, [], rfl, by simp, rfl⟩
  · exact ⟨consumerAction_windowCurrent s, consumerAction_callsInOrder hs.calls⟩
  · exact hs.congr rfl rfl rfl rfl
  · exact ⟨by cases ok <;> nofun, beginConsumer_callsInOrder hstart ok hs.calls⟩
  · rw [ht]
    exact hs.congr rfl rfl rfl rfl

/-- A step that answers a next state took no event, or took one input; choosing it wrote only what is still to come. -/
theorem step_cases {s t : State} (h : step s = .next t) :
    t = s.idle ∨ ∃ inp ins on, takeInput inp { s with inputs := ins, onward := on } = .next t := by
  cases hins : s.inputs with
  | cons inp rest => exact .inr ⟨inp, rest, s.onward, step_cons hins ▸ h⟩
  | nil =>
    cases hon : s.onward with
    | none =>
      rw [step_silent hins hon] at h
      cases h
      exact .inl rfl
    | some k => exact .inr ⟨_, s.inputs, some (k + 1), step_endless hins hon ▸ h⟩

/-- Settles O48: the invariant does not speak of the inputs to come, and every input keeps it. -/
theorem stepKeepsInvariant : Obligations.StepKeepsInvariant := by
  intro s t hs h
  obtain rfl | ⟨inp, ins, on, hinp⟩ := step_cases h
  · exact hs.congr rfl rfl rfl rfl
  · exact takeInput_keeps_inv (s := { s with inputs := ins, onward := on }) (hs.congr rfl rfl rfl rfl) hinp

end Sys2Proof.Machine

/-! PROOFS. No exception exists (60_exceptions.md): the booted machine completes every operating input (R79, R80), also
when they come without end (R85), and goes on when they have ended (R101). -/

namespace Sys2Proof.Machine

open Sys2Proof

/-! ### The booted machine -/

/-- After boot, every delivered event completes, and delivery stays registered. -/
theorem deliverEvent_completes {s : State} (hboot : s.boot = .delivering) (w : EventWord) :
    ∃ t, deliverEvent w s = .next t ∧ t.boot = .delivering :=
  ⟨_, deliverEvent_eq_writeBlock hboot w, by simpa using hboot⟩

/-- After boot, a reset leaves delivery registered. -/
theorem applyReset_boot_of_delivering {s : State} (hboot : s.boot = .delivering) : s.applyReset.boot = .delivering := by
  rw [State.applyReset_boot, hboot, BootStage.afterReset]

/-- After boot, every clock edge completes (R55), and delivery stays registered. -/
theorem clockEdge_completes {s : State} (hboot : s.boot = .delivering) (p : Ports) :
    ∃ t, clockEdge p s = .next t ∧ t.boot = .delivering := by
  unfold clockEdge
  split
  · exact ⟨_, rfl, applyReset_boot_of_delivering hboot⟩
  · split
    · exact deliverEvent_completes hboot p.evWord
    · exact ⟨_, rfl, hboot⟩

/-- After boot, every operating input completes, and delivery stays registered. -/
theorem takeInput_operating {inp : Input} (hop : inp.operating = true) {s : State} (hboot : s.boot = .delivering) :
    ∃ t, takeInput inp s = .next t ∧ t.boot = .delivering := by
  cases inp with
  | event w => exact deliverEvent_completes hboot w
  | report pin snapshot => exact deliverEvent_completes hboot (reportWord pin snapshot)
  | clock p => exact clockEdge_completes hboot p
  | reset => exact ⟨_, rfl, applyReset_boot_of_delivering hboot⟩
  | consumer => exact ⟨_, rfl, by simpa using hboot⟩
  | _ => cases hop

/-- The same for any sequence of operating inputs. -/
theorem takeInputs_operating {ins : List Input} (hop : ∀ i ∈ ins, i.operating = true) {s : State}
    (hboot : s.boot = .delivering) : ∃ t, takeInputs ins s = .next t ∧ t.boot = .delivering := by
  induction ins generalizing s with
  | nil => exact ⟨s, rfl, hboot⟩
  | cons inp ins ih =>
    obtain ⟨hinp, hins⟩ := List.forall_mem_cons.mp hop
    obtain ⟨u, hu, huboot⟩ := takeInput_operating hinp hboot
    rw [takeInputs_cons_next hu]
    exact ih hins huboot

/-- Settles O32: an event is its block step from every state, and each operating input completes in a booted state. -/
theorem nothingEverStopsTheBootedMachine : Obligations.NothingEverStopsTheBootedMachine :=
  ⟨fun i s => ⟨_, exec_eq_writeBlock i s⟩, fun _ _ hboot hop => takeInputs_operating hop hboot⟩

/-! ### Input without end -/

/-- No input changes what waits in the list of inputs. -/
theorem takeInput_inputs {inp : Input} {s t : State} (h : takeInput inp s = .next t) : t.inputs = s.inputs := by
  obtain ⟨w, -, hd⟩ | ⟨-, -, rfl⟩ | ⟨-, -, -, rfl⟩ | ⟨-, -, -, rfl⟩ | ⟨-, -, -, rfl⟩ |
    ⟨-, -, ⟨ok, -, rfl⟩, -⟩ | ⟨-, -, -, ht⟩ := takeInput_cases h
  · rw [eq_noteOverlap_of_deliverEvent hd, State.noteOverlap_inputs]
    rfl
  · exact State.applyReset_inputs s
  · rfl
  · exact State.consumerAction_inputs s
  · rfl
  · rfl
  · rw [ht]

/-- What follows the listed inputs changes nothing of what a sequence of inputs does, and none of them changes it. -/
theorem takeStream_withOnward (ins : Nat → Input) (n : Nat) (o : Option Nat) (s : State) :
    takeStream ins n (s.withOnward o) = mapNext (State.withOnward o) (takeStream ins n s) := by
  induction n generalizing ins s with
  | zero => rfl
  | succ n ih =>
    rw [takeStream, takeStream, takeInput_withOnward]
    cases takeInput (ins 0) s with
    | next t => exact ih _ t
    | fault f => rfl
    | refused r => rfl

/-- An infinite sequence goes on from the state its first input leaves. -/
theorem takeStream_succ_next {ins : Nat → Input} {s t : State} (n : Nat) (h : takeInput (ins 0) s = .next t) :
    takeStream ins (n + 1) s = takeStream (fun j => ins (j + 1)) n t := by
  simp only [takeStream, h]

/-- An infinite sequence ends in the fault of its first input. -/
theorem takeStream_succ_fault {ins : Nat → Input} {s : State} {f : Fault} (n : Nat)
    (h : takeInput (ins 0) s = .fault f) : takeStream ins (n + 1) s = .fault f := by
  simp only [takeStream, h]

/-- An infinite sequence ends in the refusal of its first input. -/
theorem takeStream_succ_refused {ins : Nat → Input} {s : State} {r : Refusal} (n : Nat)
    (h : takeInput (ins 0) s = .refused r) : takeStream ins (n + 1) s = .refused r := by
  simp only [takeStream, h]

/-- A run of the machine ends in the refusal of its first step. -/
theorem core_run_succ_refused {s : State} {r : Refusal} (n : Nat) (h : step s = .refused r) :
    Sys2Proof.core.run (n + 1) s = .refused r := by
  have h' : Sys2Proof.core.step s = .refused r := h
  simp only [Host.Core.run, h']

/-- With no input waiting in the list, a step does what the next of an endless sequence does, and leaves the number of
the one after it. -/
theorem step_endless_eq_mapNext {s : State} {k : Nat} (hins : s.inputs = []) (hon : s.onward = some k) :
    step s = mapNext (State.withOnward (some (k + 1))) (takeInput (Config.endlessInput k) s) := by
  rw [step_endless hins hon, takeInput_withOnward]

/-- Setting what follows the listed inputs to what it is changes nothing. -/
theorem withOnward_self {s : State} {o : Option Nat} (h : s.onward = o) : s.withOnward o = s := by
  rw [← h, State.withOnward]

/-- Past the first input of an endless environment, the state may hold its next number already: the rest overwrites it. -/
theorem takeStream_endless_succ {s t : State} {k : Nat} (n : Nat) (h : takeInput (Config.endlessInput k) s = .next t) :
    mapNext (State.withOnward (some (k + 1 + n)))
        (takeStream (fun j => Config.endlessInput (k + 1 + j)) n (t.withOnward (some (k + 1)))) =
      mapNext (State.withOnward (some (k + (n + 1)))) (takeStream (fun j => Config.endlessInput (k + j)) (n + 1) s) := by
  have hnumber (j : Nat) : k + 1 + j = k + (j + 1) := by omega
  rw [takeStream_withOnward, mapNext_mapNext, takeStream_succ_next (ins := fun j => Config.endlessInput (k + j)) n h]
  simp only [hnumber]
  rfl

/-- Settles O45: by induction over the steps, each of which takes one input and leaves the number of the next; a stop
of the first input is the stop of both sides. -/
theorem endlessInputIsTakenStepByStep : Obligations.EndlessInputIsTakenStepByStep := by
  intro n
  induction n with
  | zero => exact fun k s _ hon => congrArg Host.Outcome.next (withOnward_self hon).symm
  | succ n ih =>
    intro k s hins hon
    have hstep := step_endless_eq_mapNext hins hon
    cases hfirst : takeInput (Config.endlessInput k) s with
    | next t =>
      have hrest : t.inputs = [] := (takeInput_inputs hfirst).trans hins
      rw [hfirst, mapNext_next] at hstep
      rw [core_run_succ_next n hstep, ih (k + 1) (t.withOnward (some (k + 1))) hrest rfl]
      exact takeStream_endless_succ n hfirst
    | fault f =>
      rw [hfirst, mapNext_fault] at hstep
      exact (core_run_succ_fault n hstep).trans (congrArg (mapNext _) (takeStream_succ_fault n hfirst)).symm
    | refused r =>
      rw [hfirst, mapNext_refused] at hstep
      exact (core_run_succ_refused n hstep).trans (congrArg (mapNext _) (takeStream_succ_refused n hfirst)).symm

/-- After boot, the first inputs of any infinite sequence of operating inputs complete, and delivery stays registered. -/
theorem takeStream_operating {ins : Nat → Input} (hop : ∀ k, (ins k).operating = true) {s : State}
    (hboot : s.boot = .delivering) (n : Nat) : ∃ t, takeStream ins n s = .next t ∧ t.boot = .delivering := by
  rw [takeStream_eq_takeInputs]
  exact takeInputs_operating (List.forall_mem_map.mpr fun k _ => hop k) hboot

/-- When the input has ended, any positive number of steps does what one of them does. -/
theorem core_run_silent {s : State} (hins : s.inputs = []) (hon : s.onward = none) (n : Nat) :
    Sys2Proof.core.run (n + 1) s = .next s.idle := by
  rw [core_run_succ_next n (step_silent hins hon)]
  induction n with
  | zero => rfl
  | succ n ih => rw [core_run_succ_next n (step_silent (s := s.idle) hins hon)]; exact ih

/-- Settles O46: the first inputs of an infinite sequence are a finite one, and a step without input is idle. -/
theorem endlessInputNeverStopsTheBootedMachine : Obligations.EndlessInputNeverStopsTheBootedMachine :=
  ⟨fun _ _ hboot hop => takeStream_operating hop hboot, fun n _ hins hon => core_run_silent hins hon n⟩

end Sys2Proof.Machine

/-! PROOFS. Event words (30_encoding.md): encoding and decoding are inverse (R42, R49, R51, R52), the coding of the
classification (R48), and what a report keeps (R43, R47). -/

namespace Sys2Proof.Machine

open Sys2Proof

/-! ### Words and numbers -/

/-- A word is the word of the event it decodes to. -/
theorem encode_decodeWord (w : EventWord) : encode (decodeWord w) = w := by
  rw [encode, decodeWord, Instr.line_ofLine, Instr.level_ofLine, Line.code_ofCode, append_fields]

/-- A number below 16 decodes as the word of its four bits. -/
theorem decodeNat_of_lt {n : Nat} (h : n < 16) : decodeNat n = .ok (decodeWord (BitVec.ofNat 4 n)) := by
  simp [decodeNat, wordFits, h]

/-- There is no other length than four bits (R42). -/
theorem decodeNat_of_le {n : Nat} (h : 16 ≤ n) : decodeNat n = .error (.notFourBits n) := by
  simp [decodeNat, wordFits, h]

/-- A number decodes to an event exactly when it is that event's word. -/
theorem decodeNat_eq_ok_iff (n : Nat) (i : Instr) : decodeNat n = .ok i ↔ n = (encode i).toNat := by
  constructor
  · intro h
    obtain hlt | hle := Nat.lt_or_ge n 16
    · rw [decodeNat_of_lt hlt] at h
      cases h
      rw [encode_decodeWord, BitVec.toNat_ofNat, Nat.mod_eq_of_lt hlt]
    · rw [decodeNat_of_le hle] at h
      cases h
  · rintro rfl
    rw [decodeNat_of_lt (encode i).isLt, BitVec.ofNat_toNat, BitVec.setWidth_eq, decodeWord_encode]

/-- Settles O2: event by event and word by word, the two maps are inverse, and a number is a word when it fits. -/
theorem encodeDecodeInverse : Obligations.EncodeDecodeInverse :=
  ⟨Function.LeftInverse.list_map decodeWord_encode, Function.LeftInverse.list_map encode_decodeWord,
    decodeNat_eq_ok_iff, fun _ => decodeNat_of_le⟩

/-- Settles O1: each listed word is decoded, and each event of the two pseudo-events encoded. -/
theorem listedWordsDecode : Obligations.ListedWordsDecode :=
  ⟨rfl, rfl, rfl, rfl, rfl, rfl, rfl, rfl, rfl, rfl⟩

/-! ### The output port -/

/-- Different classifications have different codes (R48). -/
theorem outCode_inj (o o' : Out) : o.code = o'.code ↔ o = o' := by
  cases o <;> cases o' <;> decide

/-- Settles O4: the port shows the classification's code, which no other classification has. -/
theorem outputPortShowsTheCode : Obligations.OutputPortShowsTheCode :=
  fun s => ⟨outCode_inj s.evOut .none, outCode_inj s.evOut .cw, outCode_inj s.evOut .ccw, outCode_inj s.evOut .reset⟩

/-! ### Reports -/

/-- A report decodes to the operation of its pin's line, with the two rotation levels (R43, R47). -/
theorem decodeWord_reportWord (pin snapshot : Nat) :
    decodeWord (reportWord pin snapshot) = Instr.ofLine (lineOfPin pin) (BitVec.ofNat 2 snapshot) := by
  rw [decodeWord, reportWord, Laws.Encoding.lineField_append, Laws.Encoding.levelField_append, Line.ofCode_code]

/-- A pin outside the three contiguous ones is the fourth identity (R43). -/
theorem lineOfPin_of_outside {pin : Nat} (h : pin < Config.gpioBase ∨ Config.gpioBase + 2 < pin) :
    lineOfPin pin = .other := by
  have ha : pin ≠ Config.gpioBase := by omega
  have hb : pin ≠ Config.gpioBase + 1 := by omega
  have hbtn : pin ≠ Config.gpioBase + 2 := by omega
  simp [lineOfPin, ha, hb, hbtn]

/-- Of the snapshot a report keeps the low two bits alone (R47). -/
theorem reportWord_congr (pin : Nat) {a b : Nat} (h : a % 4 = b % 4) : reportWord pin a = reportWord pin b := by
  have hlevels : BitVec.ofNat 2 a = BitVec.ofNat 2 b := BitVec.eq_of_toNat_eq (by simpa using h)
  rw [reportWord, hlevels, reportWord]

/-- Settles O43: a report decodes by its pin's line, and its word holds no further bit of the snapshot. -/
theorem reportsKeepOnlyTheRotationLevels : Obligations.ReportsKeepOnlyTheRotationLevels := by
  refine ⟨fun snapshot => ?_, fun pin snapshot h => ?_, fun pin a b s h => ?_⟩
  · simp [decodeWord_reportWord, lineOfPin, Instr.ofLine]
  · rw [decodeWord_reportWord, lineOfPin_of_outside h, Instr.ofLine]
  · rw [takeInput, takeInput, reportWord_congr pin h]

end Sys2Proof.Machine

/-! PROOFS. Boot and reset (70_reset_and_hazards.md): what the reset leaves (R92, R93), the order of boot (R95), and events
before boot has finished (U17). -/

namespace Sys2Proof.Machine

open Sys2Proof

/-! ### Reset -/

/-- The directive and `rst` at a clock edge are one reset (R55, R92). -/
theorem takeInput_of_resets {inp : Input} (h : inp.resets = true) (s : State) : takeInput inp s = .next s.applyReset := by
  cases inp with
  | clock p =>
    have hrst : p.rst = true := h
    rw [takeInput, clockEdge, if_pos hrst]
  | reset => rfl
  | _ => cases h

/-- With no read in progress, the reset writes the block alone (R92). -/
theorem applyReset_of_not_reading {s : State} (h : ∀ first later, s.consumer ≠ .reading first later) :
    s.applyReset = s.resetBlock :=
  noteOverlap_of_not_reading h

/-- Settles O27: both forms of reset write the block, which at most a read in progress notes. -/
theorem resetClearsTheBlock : Obligations.ResetClearsTheBlock := by
  intro inp s hinp
  have hidle : s.applyReset.control = .idle :=
    (control_eq_idle_iff _).mpr ⟨State.applyReset_cw s, State.applyReset_ccw s⟩
  refine ⟨s.applyReset, takeInput_of_resets hinp s, ?_⟩
  simp +contextual [hidle, applyReset_of_not_reading]

/-- Settles O28: the fields of the reset state. -/
theorem resetStateValues : Obligations.ResetStateValues :=
  ⟨rfl, rfl, rfl, rfl, rfl, rfl, rfl⟩

/-! ### The order of boot -/

/-- Boot step 1 in any stage but the first stops (R95). -/
theorem configureLines_of_ne_unconfigured {s : State} (h : s.boot ≠ .unconfigured) :
    configureLines s = .fault .bootOrder := by
  unfold configureLines
  split
  · contradiction
  all_goals rfl

/-- Boot step 3 in any stage but the one after the reset stops (R95). -/
theorem registerDelivery_of_ne_initialised {s : State} (h : s.boot ≠ .initialised) :
    registerDelivery s = .fault .bootOrder := by
  unfold registerDelivery
  split
  case h_3 => contradiction
  all_goals rfl

/-- Settles O30: each of the two boot actions completes in one stage only. -/
theorem bootOutOfOrderStops : Obligations.BootOutOfOrderStops :=
  fun _ => ⟨configureLines_of_ne_unconfigured, registerDelivery_of_ne_initialised⟩

/-- An input that delivers a word is the delivery of that word, in whatever form it comes. -/
theorem takeInput_of_delivers {inp : Input} {w : EventWord} (h : inp.delivers = some w) (s : State) :
    takeInput inp s = deliverEvent w s := by
  cases inp with
  | event w' => cases h; rfl
  | report pin snapshot => cases h; rfl
  | clock p =>
    rcases p with ⟨rst, valid, w'⟩
    cases rst <;> cases valid <;> cases h
    rfl
  | _ => cases h

/-- Settles O31: in every form it is the delivery of a word, which has no step before boot has finished. -/
theorem eventBeforeBootIsStuck : Obligations.EventBeforeBootIsStuck := by
  intro inp w s hw hboot
  rw [takeInput_of_delivers hw, deliverEvent_of_not_delivering hboot]

/-! ### Boot with the consumer started at any point -/

/-- The block's own steps of boot, in the order of R95 (D27). -/
def bootActions : List Input := [.configureLines, .reset, .registerDelivery]

/-- A boot action does the same to the rest of the machine whether or not the consumer has just been started. -/
theorem takeInput_bootAction_beginConsumer {i : Input} (hi : i ∈ bootActions) {s : State} (hc : s.consumer = .notStarted)
    (ok : Bool) : takeInput i (s.beginConsumer ok) = mapNext (State.beginConsumer ok) (takeInput i s) := by
  rcases s with ⟨cnt, cw, ccw, out, boot, consumer, last, calls, ins, on, reads, ups⟩
  obtain rfl : consumer = .notStarted := hc
  simp only [bootActions, List.mem_cons, List.not_mem_nil, or_false] at hi
  obtain rfl | rfl | rfl := hi
  · cases boot <;> rfl
  · cases ok <;> rfl
  · cases boot <;> rfl

/-- A boot action does not start the consumer. -/
theorem consumer_of_takeInput_bootAction {i : Input} (hi : i ∈ bootActions) {s t : State} (hc : s.consumer = .notStarted)
    (h : takeInput i s = .next t) : t.consumer = .notStarted := by
  simp only [bootActions, List.mem_cons, List.not_mem_nil, or_false] at hi
  obtain rfl | rfl | rfl := hi
  · simp only [takeInput, configureLines] at h
    split at h <;> cases h
    exact hc
  · cases h
    rw [applyReset_of_not_reading (by simp [hc])]
    exact hc
  · simp only [takeInput, registerDelivery] at h
    split at h <;> cases h
    exact hc

/-- Starting the consumer after some boot actions is starting it before them. -/
theorem takeInputs_startConsumer_after {before : List Input} (hboot : ∀ i ∈ before, i ∈ bootActions) {s : State}
    (hc : s.consumer = .notStarted) (ok : Bool) (after : List Input) :
    takeInputs (before ++ .startConsumer ok :: after) s = takeInputs (before ++ after) (s.beginConsumer ok) := by
  induction before generalizing s with
  | nil => exact takeInputs_cons_next (takeInput_startConsumer (.inl hc) ok) after
  | cons i before ih =>
    obtain ⟨hi, hbefore⟩ := List.forall_mem_cons.mp hboot
    have hcomm := takeInput_bootAction_beginConsumer hi hc ok
    simp only [List.cons_append, takeInputs, hcomm]
    cases h : takeInput i s with
    | next t => exact ih hbefore (consumer_of_takeInput_bootAction hi hc h)
    | fault f => rfl
    | refused r => rfl

/-- Settles O29: the consumer may as well be started right after power-up, so all four placements are one run, whose
three boot actions end in the reset state. -/
theorem bootReachesReset : Obligations.BootReachesReset := by
  intro s before after h
  have hbefore : ∀ i ∈ before, i ∈ bootActions := by
    intro i hi
    rw [bootActions, ← h]
    exact List.mem_append_left after hi
  have hrun : takeInputs (before ++ .startConsumer true :: after) s.powerUp =
      takeInputs bootActions (s.powerUp.beginConsumer true) := by
    rw [takeInputs_startConsumer_after hbefore rfl, h, bootActions]
  simp only [List.append_assoc, List.cons_append, List.nil_append]
  rw [takeInputs_cons_next (t := s.powerUp) rfl, hrun]
  rfl

end Sys2Proof.Machine

/-! PROOFS. The step (60_exceptions.md) and the clocked realization (30_encoding.md): a waiting event is run by the next step
(R6, R11), and a clock edge does what its ports say (R55). -/

namespace Sys2Proof.Machine

open Sys2Proof

/-! ### The step -/

/-- Settles O8: EDGE_OTHER is the block step that leaves the block as it is and classifies `NONE` (R65). -/
theorem edgeOtherResult : Obligations.EdgeOtherResult :=
  fun level s => exec_eq_writeBlock (.edgeOther level) s

/-- The word of an event is placed first, and delivery is registered. -/
theorem withFetchWord_encode (i : Instr) (s : State) :
    s.withFetchWord 4 (encode i).toNat =
      { s with boot := .delivering, inputs := .event (encode i) :: s.inputs } := by
  have hlt : (encode i).toNat < 16 := (encode i).isLt
  simp [State.withFetchWord, wordFits, Nat.mod_eq_of_lt hlt, hlt]

/-- With an event's word next after boot and no read in progress, the step is the execution of the event. -/
theorem step_encode {s : State} {i : Instr} {rest : List Input} (hins : s.inputs = .event (encode i) :: rest)
    (hboot : s.boot = .delivering) (hread : ∀ first later, s.consumer ≠ .reading first later) :
    step s = exec i { s with inputs := rest } := by
  rw [step_cons hins, takeInput, deliverEvent_of_not_reading (s := { s with inputs := rest }) hboot hread,
    decodeWord_encode]

/-- Settles O33: a step takes the first input, and the delivery of a word after boot is the execution of its event. -/
theorem stepRunsTheDecodedEvent : Obligations.StepRunsTheDecodedEvent := by
  refine ⟨fun s w rest hins hboot => ?_, fun i s hins hboot hread => step_encode hins hboot hread, fun i s hread => ?_⟩
  · rw [step_cons hins, takeInput, deliverEvent_delivering (s := { s with inputs := rest }) hboot]
  · rw [withFetchWord_encode]
    exact step_encode rfl rfl hread

/-! ### Clock edges -/

/-- A clock edge with `rst` is the reset (R55). -/
theorem takeInput_clock_of_rst {p : Ports} (hrst : p.rst = true) (s : State) :
    takeInput (.clock p) s = takeInput .reset s := by
  simp [takeInput, clockEdge, hrst]

/-- A clock edge without `rst` takes the event presented (R55). -/
theorem takeInput_clock_of_valid {p : Ports} (hrst : p.rst = false) (hvalid : p.evValid = true) (s : State) :
    takeInput (.clock p) s = takeInput (.event p.evWord) s := by
  simp [takeInput, clockEdge, hrst, hvalid]

/-- A clock edge with neither holds the state (R55). -/
theorem takeInput_clock_of_idle {p : Ports} (hrst : p.rst = false) (hvalid : p.evValid = false) (s : State) :
    takeInput (.clock p) s = .next s.idle := by
  simp [takeInput, clockEdge, hrst, hvalid]

/-- Settles O35: the three cases of the two control ports. -/
theorem clockEdgeFollowsThePorts : Obligations.ClockEdgeFollowsThePorts :=
  fun _ s _ => ⟨fun hrst => takeInput_clock_of_rst hrst s, fun hrst hvalid => takeInput_clock_of_valid hrst hvalid s,
    fun hrst hvalid => takeInput_clock_of_idle hrst hvalid s⟩

/-- The inputs a clock edge stands for: a reset, an event, or none (R55). -/
def Ports.inputs (p : Ports) : List Input :=
  if p.rst then [.reset] else if p.evValid then [.event p.evWord] else []

/-- Resets and events do the same to any two booted machines with the same block. -/
theorem takeInput_same_block {inp : Input} (hinp : inp = .reset ∨ ∃ w, inp = .event w) {s u : State}
    (hs : s.boot = .delivering) (hu : u.boot = .delivering) (hblock : s.block = u.block) :
    ∃ t v, takeInput inp s = .next t ∧ takeInput inp u = .next v ∧
      t.boot = .delivering ∧ v.boot = .delivering ∧ t.block = v.block := by
  obtain rfl | ⟨w, rfl⟩ := hinp
  · exact ⟨_, _, rfl, rfl, applyReset_boot_of_delivering hs, applyReset_boot_of_delivering hu, by simp [State.block]⟩
  · obtain ⟨t, ht, htboot, htblock⟩ := takeInput_event_blockStep hs w
    obtain ⟨v, hv, hvboot, hvblock⟩ := takeInput_event_blockStep hu w
    exact ⟨t, v, ht, hv, htboot, hvboot, congrArg Prod.fst (htblock.trans (hblock ▸ hvblock.symm))⟩

/-- A clock edge and the inputs it stands for do the same to the block. -/
theorem clock_refines_inputs (p : Ports) {s u : State} (hs : s.boot = .delivering) (hu : u.boot = .delivering)
    (hblock : s.block = u.block) :
    ∃ t v, takeInput (.clock p) s = .next t ∧ takeInputs p.inputs u = .next v ∧
      t.boot = .delivering ∧ v.boot = .delivering ∧ t.block = v.block := by
  cases hrst : p.rst with
  | true =>
    obtain ⟨t, v, ht, hv, hrest⟩ := takeInput_same_block (.inl rfl) hs hu hblock
    exact ⟨t, v, by rw [takeInput_clock_of_rst hrst, ht], by simp [Ports.inputs, hrst, takeInputs, hv], hrest⟩
  | false =>
    cases hvalid : p.evValid with
    | true =>
      obtain ⟨t, v, ht, hv, hrest⟩ := takeInput_same_block (.inr ⟨p.evWord, rfl⟩) hs hu hblock
      exact ⟨t, v, by rw [takeInput_clock_of_valid hrst hvalid, ht],
        by simp [Ports.inputs, hrst, hvalid, takeInputs, hv], hrest⟩
    | false =>
      exact ⟨s.idle, u, takeInput_clock_of_idle hrst hvalid s, by simp [Ports.inputs, hrst, hvalid], hs, hu, hblock⟩

/-- The same for any sequence of clock edges. -/
theorem clocks_refine_inputs (ps : List Ports) {s u : State} (hs : s.boot = .delivering) (hu : u.boot = .delivering)
    (hblock : s.block = u.block) :
    ∃ t v, takeInputs (ps.map .clock) s = .next t ∧ takeInputs (ps.flatMap Ports.inputs) u = .next v ∧
      t.block = v.block := by
  induction ps generalizing s u with
  | nil => exact ⟨s, u, rfl, rfl, hblock⟩
  | cons p ps ih =>
    obtain ⟨s', u', hs', hu', hsboot, huboot, hblock'⟩ := clock_refines_inputs p hs hu hblock
    rw [List.map_cons, takeInputs_cons_next hs', List.flatMap_cons, takeInputs_append _ _ hu']
    exact ih hsboot huboot hblock'

/-- Settles O36: by induction over the clock edges, for two machines that share the block and may differ in the output. -/
theorem clockedRunRefinesEventRun : Obligations.ClockedRunRefinesEventRun := by
  intro ps s hboot
  obtain ⟨t, u, ht, hu, hblock⟩ := clocks_refine_inputs ps hboot hboot rfl
  exact ⟨t, u, ht, hu, (block_eq_iff ..).mp hblock⟩

end Sys2Proof.Machine

/-! PROOFS. What one iteration of the consumer draws (42_read_port_and_consumer.md): the iteration (R72) and the numeral
(R73). -/

namespace Sys2Proof.Machine

open Sys2Proof

/-- Settles O38: the iteration, with the calls of its render written out. -/
theorem consumerIteration : Obligations.ConsumerIteration :=
  fun _ h => consumerActions_iteration h

/-- A digit is drawn as the library draws it. -/
theorem digitChar_eq (n : Nat) : digitChar n = Nat.digitChar (n % 10) := by
  have hdigits : ∀ d < 10, Char.ofNat (48 + d) = Nat.digitChar d := by decide
  exact hdigits _ (Nat.mod_lt n (by decide))

/-- A number of one digit is written as that digit, a longer one as its tens and then its last digit. -/
theorem toDigits_ten_eq (n : Nat) :
    Nat.toDigits 10 n = (if 10 ≤ n then Nat.toDigits 10 (n / 10) else []) ++ [digitChar n] := by
  rw [digitChar_eq]
  split
  · next h => exact Nat.toDigits_of_base_le (by decide) h
  · next h => rw [Nat.mod_eq_of_lt (by omega), List.nil_append, Nat.toDigits_of_lt_base (by omega)]

/-- Settles O40: the last digit is always drawn, the tens from 10 on and the hundreds from 100 on. -/
theorem decimalNumeral : Obligations.DecimalNumeral := by
  intro v
  have hv : v.toNat < 256 := v.isLt
  have hhundreds : Nat.toDigits 10 (v.toNat / 100) = [digitChar (v.toNat / 100)] := by
    rw [toDigits_ten_eq, if_neg (by omega), List.nil_append]
  have htens : Nat.toDigits 10 (v.toNat / 10) =
      (if 100 ≤ v.toNat then [digitChar (v.toNat / 100)] else []) ++ [digitChar (v.toNat / 10)] := by
    have hle : 10 ≤ v.toNat / 10 ↔ 100 ≤ v.toNat := by omega
    rw [toDigits_ten_eq, Nat.div_div_eq_div_mul, hhundreds]
    simp only [hle]
  rw [decimal, toDigits_ten_eq, htens]
  by_cases h : 10 ≤ v.toNat
  · simp [h]
  · have hlt : ¬100 ≤ v.toNat := by omega
    simp [h, hlt]

end Sys2Proof.Machine
